-- ==== Sys2Proof/Word.lean ====
section
/-!
DEFINITION. The value types of the block (00_scope.md R9, R10): bytes, 16-bit values and 24-bit values, all
unsigned. Lengths and capacities are `Nat` (R9).
-/
namespace Sys2Proof

/-- A byte, 8 bits (R9). -/
abbrev Byte := BitVec 8

/-- A 16-bit value: the command word, the CRC and the 16-bit header fields (R9, R70). -/
abbrev Word16 := BitVec 16

/-- A 24-bit value: `admin_code` (R9, R90). -/
abbrev Word24 := BitVec 24

end Sys2Proof
end

