-- ==== Sys2Proof/Config.lean ====
section
/-!
DEFINITION. The parameters TP leaves to the implementation (00_scope.md R8). `CAP` is a command operand
(`OperandBundle.cap`), so it is not here. `MAX_SRC` is open (92_eei_decisions.md D22): every state carries its value
in the field `State.maxSrc`, and this file names only the value the spec takes when a model fixes none.
-/
namespace Sys2Proof.Config

/-- The value of `MAX_SRC` when nothing fixes it: unbounded (R8 "unbounded when the model does not fix it", D22
"Default: unbounded"). `none` is unbounded. DESIGN CHOICE, log 2: the machine's rules never read this constant,
only the reset state does. -/
def maxSrcDefault : Option Nat := none

/-- `ENC_CAP_MIN` (R8): the smallest outbound encode buffer TP allows the software around the block. No rule of the
block reads it; R247 speaks of a `CAP` of this size. -/
def encCapMin : Nat := 2048

end Sys2Proof.Config
end

