-- ==== Sys2Proof/Syntax.lean ====
section
/-!
DEFINITION. The commands of the block, one constructor of `Instr` per row of spec/opcode_table.json
(30_encoding.md R73), and the data a command takes by value (R71, R74, R90).
-/
namespace Sys2Proof

/-- DeviceId (30_encoding.md R90): an endpoint. -/
structure DeviceId where
  adminCode  : Word24
  deviceType : Word16
  deviceId   : Word16
deriving DecidableEq, Repr

/-- The data table (30_encoding.md R90), the frame unit's `TBL` operand and result. Every field has exactly the width of
R90, so a value out of range cannot be presented (R74); the length of `content` is unbounded on the port. -/
structure DataTable where
  linkAddr        : Word16
  sender          : DeviceId
  receiver        : DeviceId
  protocolVersion : Byte
  operation       : Byte
  objectId        : Word16
  content         : List Byte
deriving DecidableEq, Repr

/-- The operand bundle the host presents with every command word (30_encoding.md R71). A command reads only the parts
its row of R73 names. -/
structure OperandBundle where
  src : List Byte
  cap : Nat
  tbl : DataTable
deriving DecidableEq, Repr

/-- A command of the block (30_encoding.md R73). `CW-D` commands carry their byte operand `d = CW[15:8]` (R72); the
operands `SRC`, `CAP` and `TBL` arrive on the port (R71), not in the command word. -/
inductive Instr where
  /-- `CRC_INIT`, OPC 0x01 (R120). -/
  | crcInit
  /-- `CRC_UPDATE d`, OPC 0x02 (R121). -/
  | crcUpdate (d : Byte)
  /-- `CRC_READ`, OPC 0x03 (R122). -/
  | crcRead
  /-- `CRC_BLOCK`, OPC 0x04, reads `SRC` (R123). -/
  | crcBlock
  /-- `ESC_ENC_BYTE d`, OPC 0x10 (R140). -/
  | escEncByte (d : Byte)
  /-- `ESC_ENC_BLOCK`, OPC 0x11, reads `SRC`, `CAP` (R141). -/
  | escEncBlock
  /-- `ESC_DEC_RESET`, OPC 0x18 (R145). -/
  | escDecReset
  /-- `ESC_DEC_BYTE d`, OPC 0x19 (R146). -/
  | escDecByte (d : Byte)
  /-- `ESC_DEC_FLUSH`, OPC 0x1A (R147). -/
  | escDecFlush
  /-- `ESC_DEC_BLOCK`, OPC 0x1B, reads `SRC`, `CAP` (R148). -/
  | escDecBlock
  /-- `FRAME_ENCODE`, OPC 0x20, reads `TBL`, `CAP` (R180). -/
  | frameEncode
  /-- `FRAME_DECODE`, OPC 0x21, reads `SRC` (R181). -/
  | frameDecode
  /-- `STAT_READ`, OPC 0xF0 (R201). -/
  | statRead
  /-- `SOFT_RESET`, OPC 0xFF (R200). -/
  | softReset
deriving DecidableEq, Repr

/-- One transaction as the host presents it: a command word and the operand bundle (30_encoding.md R71). -/
structure Transaction where
  cw  : Word16
  ops : OperandBundle
deriving DecidableEq, Repr

/-- The operation codes TP lists, carried in `operation` (30_encoding.md R95). The block does not interpret them (R99). -/
inductive Operation where
  | queryReq | setReq | upload | queryResp | setResp | uploadResp | errorResp
deriving DecidableEq, Repr

/-- The object identifiers TP lists (30_encoding.md R96). The block does not interpret them. -/
inductive ObjectKind where
  | communication | detectorStatus | trafficRealtime | trafficStats
deriving DecidableEq, Repr

/-- The session error codes of `ERROR_RESP` content (30_encoding.md R97), informative for the block, which neither
produces nor checks them. -/
inductive SessionError where
  | frameStart | frameEnd | crcMismatch | linkAddress | protocolVersion | operationType | objectId | content
deriving DecidableEq, Repr

end Sys2Proof
end

