-- ==== Sys2Proof/Machine/Constants.lean ====
section
/-!
DEFINITION. The block's constants (00_scope.md R7) and the code points of the wire fields that TP lists
(30_encoding.md R95, R96, R97). None is programmable (10_state.md R37).
-/
namespace Sys2Proof

/-- `DELIM` (R7): the frame delimiter. -/
def delim : Byte := 0xC0#8
/-- `ESC` (R7): first byte of every escape. -/
def esc : Byte := 0xDB#8
/-- `ESC_END` (R7): second byte of the escape of `0xC0`. -/
def escEnd : Byte := 0xDC#8
/-- `ESC_ESC` (R7): second byte of the escape of `0xDB`. -/
def escEsc : Byte := 0xDD#8
/-- `CRC_INIT_VAL` (R7). -/
def crcInitVal : Word16 := 0xFFFF#16
/-- `CRC_POLY_REFL` (R7). -/
def crcPolyRefl : Word16 := 0xA001#16
/-- `CRC_XOROUT` (R7): "no final xor". -/
def crcXorOut : Word16 := 0x0000#16
/-- `HDR_LEN` (R7; 90_conflicts.md C1). -/
def hdrLen : Nat := 20
/-- `CRC_LEN` (R7). -/
def crcLen : Nat := 2
/-- `MIN_UNESC` (R7) = `HDR_LEN + CRC_LEN` = 22. -/
def minUnesc : Nat := hdrLen + crcLen
/-- `MAX_CONTENT` (R7). -/
def maxContent : Nat := 1500
/-- `MAX_UNESC` (R7). -/
def maxUnesc : Nat := 2048
/-- `PROTO_VER` (R7); the block does not check it (R99). -/
def protoVer : Byte := 0x10#8
/-- `LINK_ADDR_RSVD` (R7); the block does not check it (R99). -/
def linkAddrRsvd : Word16 := 0x0000#16

/-- The byte that carries an operation (R95). -/
def Operation.code : Operation → Byte
  | .queryReq   => 0x80#8
  | .setReq     => 0x81#8
  | .upload     => 0x82#8
  | .queryResp  => 0x83#8
  | .setResp    => 0x84#8
  | .uploadResp => 0x85#8
  | .errorResp  => 0x86#8

/-- The operation a byte names, if TP lists it (R95). -/
def Operation.ofCode (b : Byte) : Option Operation :=
  [Operation.queryReq, .setReq, .upload, .queryResp, .setResp, .uploadResp, .errorResp].find? (fun o => o.code == b)

/-- The value that carries an object identifier (R96). -/
def ObjectKind.code : ObjectKind → Word16
  | .communication   => 0x0101#16
  | .detectorStatus  => 0x0205#16
  | .trafficRealtime => 0x0301#16
  | .trafficStats    => 0x0302#16

/-- The object identifier a value names, if TP lists it (R96). -/
def ObjectKind.ofCode (v : Word16) : Option ObjectKind :=
  [ObjectKind.communication, .detectorStatus, .trafficRealtime, .trafficStats].find? (fun o => o.code == v)

/-- The object identifier `ERROR_RESP` frames use (R96). -/
def errorObjectId : Word16 := 0x0000#16

/-- The content byte of an `ERROR_RESP` frame (R97). -/
def SessionError.code : SessionError → Byte
  | .frameStart      => 1#8
  | .frameEnd        => 2#8
  | .crcMismatch     => 3#8
  | .linkAddress     => 4#8
  | .protocolVersion => 5#8
  | .operationType   => 6#8
  | .objectId        => 7#8
  | .content         => 128#8

/-- The operand bundle with nothing in it: what the port holds when no command is on it (log 7). -/
def OperandBundle.empty : OperandBundle :=
  { src := [], cap := 0,
    tbl := { linkAddr := 0, sender := ⟨0, 0, 0⟩, receiver := ⟨0, 0, 0⟩, protocolVersion := 0, operation := 0,
             objectId := 0, content := [] } }

end Sys2Proof
end

