-- ==== Sys2Proof/Machine/State.lean ====
section
/-!
DEFINITION. The state of the block (10_state.md R31, R40), the response of a command (30_encoding.md R71), what the host
can present (R71, R241), and the reset state. Plain data throughout.
-/
namespace Sys2Proof.Machine

/-- The outcome of a command (30_encoding.md R85); its number is `Status.code` (Flags.lean). -/
inductive Status where
  /-- 0: the command completed. -/
  | ok
  /-- 1: an argument is out of range. -/
  | invalidParam
  /-- 2: the output is longer than `CAP`. -/
  | bufferSmall
  /-- 3: the frame does not begin and end with a delimiter. -/
  | format
  /-- 4: illegal escape. -/
  | escape
  /-- 5: fewer than 22 unescaped bytes. -/
  | incomplete
  /-- 6: the received CRC does not match. -/
  | crc
  /-- 7: the unescaped frame or its content is too long. -/
  | oversize
  /-- 8: the command word is reserved or malformed. -/
  | illegalCmd
deriving DecidableEq, Repr

/-- The response of one command (R71). A field the command does not produce is empty. -/
structure Response where
  status : Status
  out    : List Byte
  val    : Option Word16
  tbl    : Option DataTable
deriving DecidableEq, Repr

/-- What can arrive at the block from outside, one at a time (R30, R71, R241, R242). -/
inductive HostEvent where
  /-- The host presents a command word and its operand bundle (R71). -/
  | command (t : Transaction)
  /-- Power-on reset (R240, R241). `outstanding` is the command that was outstanding when it occurred, if there was one:
  it has no response and its effects are lost (R242; log 3). -/
  | powerOnReset (outstanding : Option Transaction)
deriving DecidableEq, Repr

/-- The faults of the machine: none. The block has "no stuck and no faulted state" (60_exceptions.md R220); every error
is a status in a response (R210), which is a next state. Log 5; safe. -/
inductive Fault
deriving DecidableEq, Repr

/-- The refusals of the machine. -/
inductive Refusal where
  /-- An instruction whose meaning is not written. Raised only by an arm of `exec` that has no meaning; no arm of this
  model raises it. Safe: nothing is claimed of such an instruction. -/
  | notModelled (mnemonic : String)
deriving DecidableEq, Repr

/-- The whole state. The first three fields are the block's registers, which are all of its architectural state
(10_state.md R31, R40); the other three are the MODEL's own: the open parameter `MAX_SRC` (R8, log 2), and what the
host presents and gets back (R71, R63, log 1). -/
structure State where
  /-- `CRC_ACC` (R32). -/
  crcAcc    : Word16
  /-- `ESC_PEND` (R33). -/
  escPend   : BitVec 1
  /-- `STATUS`, its one field `CODE` (R35). -/
  status    : BitVec 4
  /-- `MAX_SRC` (R8); `none` is unbounded. No command writes it. -/
  maxSrc    : Option Nat
  /-- What the host has still to present, in order; the head is on the ports now. -/
  script    : List HostEvent
  /-- The responses returned so far, oldest first. -/
  responses : List Response
deriving DecidableEq, Repr

/-- Right after power-on reset (10_state.md R40, 70_reset_and_hazards.md R240): `CRC_ACC = 0xFFFF`, `ESC_PEND = 0`,
`STATUS = 0`, and no command outstanding. `MAX_SRC` is unbounded by default (R8; DESIGN CHOICE, log 2), and the
host has presented nothing and received nothing (DESIGN CHOICE, log 1). -/
def State.reset : State :=
  { crcAcc := 0xFFFF#16, escPend := 0#1, status := 0#4,
    maxSrc := Config.maxSrcDefault, script := [], responses := [] }

end Sys2Proof.Machine
end

