-- ==== Sys2Proof/Machine/Flags.lean ====
section
/-!
DEFINITION. The block has no flags (10_state.md R36); its one status register is `STATUS`, and what a command writes
there is computed here (R35, 30_encoding.md R85).
-/
namespace Sys2Proof.Machine

/-- The number of a status code (R85). -/
def Status.code : Status → BitVec 4
  | .ok           => 0#4
  | .invalidParam => 1#4
  | .bufferSmall  => 2#4
  | .format       => 3#4
  | .escape       => 4#4
  | .incomplete   => 5#4
  | .crc          => 6#4
  | .oversize     => 7#4
  | .illegalCmd   => 8#4

/-- The status a code stands for; codes 9 to 15 are never produced (R85, 93 P3). -/
def Status.ofCode (c : BitVec 4) : Option Status :=
  [Status.ok, .invalidParam, .bufferSmall, .format, .escape, .incomplete, .crc, .oversize, .illegalCmd].find?
    (fun st => st.code == c)

/-- R201: `zext_16(STATUS)`, the value `STAT_READ` returns. -/
def statusValue (c : BitVec 4) : Word16 := c.setWidth 16

end Sys2Proof.Machine
end

