-- ==== Sys2Proof/Machine/Ops.lean ====
section
/-!
DEFINITION. The named operations on the registers and the response port. `raise` is how this block takes an error: it is
the only exception mechanism the spec describes (60_exceptions.md R210, R213), it leads to a next state, and there is
no return from it (R218, R219).
-/
namespace Sys2Proof.Machine

/-- `CRC_ACC <- v` (R13). -/
def State.setCrcAcc (s : State) (v : Word16) : State := { s with crcAcc := v }

/-- `ESC_PEND <- b` (R13). -/
def State.setEscPend (s : State) (b : BitVec 1) : State := { s with escPend := b }

/-- `STATUS <- E` (R13, R35). -/
def State.setStatus (s : State) (e : Status) : State := { s with status := e.code }

/-- The three registers at their reset values (10_state.md R40, R241: power-on reset and `SOFT_RESET` give the same). -/
def State.resetRegisters (s : State) : State := { s with crcAcc := crcInitVal, escPend := 0#1, status := Status.ok.code }

/-- A response with status `OK` and no output (R71). -/
def Response.done : Response := { status := .ok, out := [], val := none, tbl := none }

/-- `out <- w; return` (R13). -/
def Response.ofOut (w : List Byte) : Response := { Response.done with out := w }

/-- `val <- v; return` (R13). -/
def Response.ofVal (v : Word16) : Response := { Response.done with val := some v }

/-- `tbl <- t; return` (R13). -/
def Response.ofTbl (t : DataTable) : Response := { Response.done with tbl := some t }

/-- The response of a command that raised `e`: `out = []`, `val` none, `tbl` none (60_exceptions.md R213). -/
def Response.error (e : Status) : Response := { status := e, out := [], val := none, tbl := none }

/-- The block returns the response, and the transaction is over: the ports hold nothing after it (10_state.md R38, 30_encoding.md
R71). Responses come back in the order of the commands (20_memory.md R63). -/
def State.respond (s : State) (r : Response) : State :=
  { s with script := s.script.tail, responses := s.responses ++ [r] }

/-- The end of every command except `STAT_READ`: `STATUS` keeps the response's status (R35). -/
def State.complete (s : State) (r : Response) : State := (s.setStatus r.status).respond r

/-- `raise E` (R13, 60_exceptions.md R210, R213): the command ends at once with status `E`, `STATUS <- E`, no output data;
the register writes made before it stay. -/
def State.raise (s : State) (e : Status) : State := s.complete (Response.error e)

/-- `x <- f(...)?; <response of x>; return` (R14): raise what a pure function returns as an error, else complete. -/
def State.answer {α : Type} (s : State) (res : Except Status α) (f : α → Response) : State :=
  match res with
  | .ok x => s.complete (f x)
  | .error e => s.raise e

/-- A command word that decode rejects (60_exceptions.md R216, 30_encoding.md R75): `STATUS <- ILLEGAL_CMD`, no operand read, no
other register written. -/
def State.illegalCommand (s : State) : State := s.raise .illegalCmd

/-- Power-on reset (70_reset_and_hazards.md R240, R242): the registers take their reset values, and a command outstanding
at that moment has no response (log 3). -/
def State.powerOn (s : State) : State := { s.resetRegisters with script := s.script.tail }

end Sys2Proof.Machine
end

