-- ==== Sys2Proof/Machine/Control.lean ====
section
/-!
DEFINITION. The control commands (43_control.md).
-/
namespace Sys2Proof.Machine

/-- `STAT_READ` (R201): returns `STATUS` and does not write it (R35, 92_eei_decisions.md D31). -/
def execStatRead (s : State) : Host.Outcome State Fault Refusal :=
  .next (s.respond (Response.ofVal (statusValue s.status)))

/-- `SOFT_RESET` (R200): the registers take their reset values. -/
def execSoftReset (s : State) : Host.Outcome State Fault Refusal :=
  .next (s.resetRegisters.complete Response.done)

end Sys2Proof.Machine
end

