-- ==== Sys2Proof/Machine/Bytes.lean ====
section
/-!
DEFINITION. The operators the rules use on values and byte sequences (00_scope.md R11, R12) and the little-endian
splitting of header fields (42_frame.md R161; 20_memory.md R52, R53).
-/
namespace Sys2Proof.Machine

/-- R12: a byte zero-extended to 16 bits. -/
def zext16 (b : Byte) : Word16 := b.setWidth 16

/-- R12: `v[7:0]`. -/
def lo8 (v : Word16) : Byte := v.extractLsb' 0 8

/-- R12: `v[15:8]`. -/
def hi8 (v : Word16) : Byte := v.extractLsb' 8 8

/-- R12: the 16-bit value of two bytes, the low one first. -/
def le16 (b0 b1 : Byte) : Word16 := zext16 b0 ||| (zext16 b1 <<< 8)

/-- R12: the 24-bit value of three bytes, the low one first. -/
def le24 (b0 b1 b2 : Byte) : Word24 :=
  b0.setWidth 24 ||| (b1.setWidth 24 <<< 8) ||| (b2.setWidth 24 <<< 16)

/-- R161: the two octets of a 16-bit value, low one first. -/
def le2 (v : Word16) : List Byte := [lo8 v, hi8 v]

/-- R161: the three octets of a 24-bit value, low one first. -/
def le3 (v : Word24) : List Byte := [v.extractLsb' 0 8, v.extractLsb' 8 8, v.extractLsb' 16 8]

/-- R11: `s[i]`. The rules read it only for `i < len(s)`; beyond the end it is 0 here (log 8). -/
def byteAt (s : List Byte) (i : Nat) : Byte := s.getD i 0#8

/-- R11: `s[i .. j]`, both ends inclusive, `[]` when `j < i`. -/
def slice (s : List Byte) (i j : Nat) : List Byte := (s.take (j + 1)).drop i

/-- The bytes the escape rule treats specially: `0xC0` and `0xDB` (30_encoding.md R94, R100). -/
def isSpecial (b : Byte) : Bool := b == delim || b == esc

/-- R11, R100: `count(b in {0xC0, 0xDB}, s)`. -/
def countSpecial (s : List Byte) : Nat := s.countP isSpecial

end Sys2Proof.Machine
end

