-- ==== Sys2Proof/WellFormed.lean ====
section
/-!
DEFINITION. What it takes for the data around a command to be well formed. An `Instr` needs no check of its own: its one
operand has exactly its width (30_encoding.md R74), so every `Instr` has an encoding and every one of them is legal.
The checks below are those the spec states on the data a host writes or presents: the byte operand of an assembler
line (R78), the length of `SRC` (R74), and the data table (R90, R99).
-/
namespace Sys2Proof

/-- R78: a byte operand written as a number is in `0`..`255`; any other is an assembly error. -/
def byteOperandOk (n : Nat) : Bool := decide (n ≤ 255)

/-- R74: `0 <= len(SRC) <= MAX_SRC`, with `none` for an unbounded `MAX_SRC` (R8). -/
def srcLengthOk (maxSrc : Option Nat) (src : List Byte) : Bool :=
  match maxSrc with
  | none => true
  | some m => decide (src.length ≤ m)

/-- R90: the one check the block makes on a table, `len(content) <= MAX_CONTENT`. -/
def DataTable.contentOk (t : DataTable) : Bool := decide (t.content.length ≤ maxContent)

/-- R90, R95, R99: the table holds TP's reserved, constant and listed values. The BLOCK does not check this (R99, R173);
the session layer does (R97 codes 4 to 6). -/
def DataTable.tpValid (t : DataTable) : Bool :=
  t.contentOk && t.linkAddr == linkAddrRsvd && t.protocolVersion == protoVer && (Operation.ofCode t.operation).isSome

end Sys2Proof
end

