-- ==== Sys2Proof/Machine/Operands.lean ====
section
/-!
DEFINITION. Where a command's operands come from (30_encoding.md R71, R74) and the two checks the rules make on them: the
length of `SRC` (00_scope.md R8) and the output capacity `CAP` (41_escape.md R141, R148; 42_frame.md R160).
-/
namespace Sys2Proof.Machine

/-- The operand bundle on the port: that of the command being executed, the head of the host's script (R71). With no
command on the port the bundle is empty (log 7). -/
def State.operands (s : State) : OperandBundle :=
  match s.script with
  | .command t :: _ => t.ops
  | _ => OperandBundle.empty

/-- `SRC`, checked: `if len(SRC) > MAX_SRC: raise INVALID_PARAM` (R8; R123, R141, R148, R181). -/
def State.readSrc (s : State) : Except Status (List Byte) :=
  if srcLengthOk s.maxSrc s.operands.src then .ok s.operands.src else .error .invalidParam

/-- A sequence output, checked: `if len(w) > CAP: raise BUFFER_SMALL`; the check is exact (R141, R148, R160). -/
def fitCap (cap : Nat) (w : List Byte) : Except Status (List Byte) :=
  if w.length > cap then .error .bufferSmall else .ok w

end Sys2Proof.Machine
end

