-- ==== Sys2Proof/Machine/Escape.lean ====
section
/-!
DEFINITION. The escape unit (41_escape.md): the transform of a byte and of a sequence, its inverse, and the meanings of the
six escape commands.
-/
namespace Sys2Proof.Machine

/-- Escape of one byte (R130). -/
def escByte (b : Byte) : List Byte :=
  if b = delim then [esc, escEnd]
  else if b = esc then [esc, escEsc]
  else [b]

/-- Escape of a sequence (R131). -/
def escSeq (s : List Byte) : List Byte := s.flatMap escByte

/-- Unescape of a sequence (R132): a raw `0xC0`, a trailing `0xDB` and a `0xDB` before any byte other than `0xDC` or `0xDD` are
`ESCAPE` (92_eei_decisions.md D10, 90_conflicts.md C4). -/
def unescSeq : List Byte → Except Status (List Byte)
  | [] => .ok []
  | b :: rest =>
    if b = delim then .error .escape
    else if b = esc then
      match rest with
      | [] => .error .escape
      | n :: rest' =>
        if n = escEnd then (unescSeq rest').map (delim :: ·)
        else if n = escEsc then (unescSeq rest').map (esc :: ·)
        else .error .escape
    else (unescSeq rest).map (b :: ·)
termination_by structural l => l

/-- `ESC_ENC_BYTE d` (R140). -/
def execEscEncByte (d : Byte) (s : State) : Host.Outcome State Fault Refusal :=
  .next (s.complete (Response.ofOut (escByte d)))

/-- `ESC_ENC_BLOCK` (R141). -/
def execEscEncBlock (s : State) : Host.Outcome State Fault Refusal :=
  .next (s.answer (s.readSrc.bind fun src => fitCap s.operands.cap (escSeq src)) Response.ofOut)

/-- `ESC_DEC_RESET` (R145). -/
def execEscDecReset (s : State) : Host.Outcome State Fault Refusal :=
  .next ((s.setEscPend 0#1).complete Response.done)

/-- `ESC_DEC_BYTE d` (R146): with a pending `0xDB`, `ESC_PEND <- 0` comes before any `raise`, so it stays cleared
(92_eei_decisions.md D11). -/
def execEscDecByte (d : Byte) (s : State) : Host.Outcome State Fault Refusal :=
  if s.escPend = 0#1 then
    if d = esc then .next ((s.setEscPend 1#1).complete Response.done)
    else if d = delim then .next (s.raise .escape)
    else .next (s.complete (Response.ofOut [d]))
  else
    if d = escEnd then .next ((s.setEscPend 0#1).complete (Response.ofOut [delim]))
    else if d = escEsc then .next ((s.setEscPend 0#1).complete (Response.ofOut [esc]))
    else .next ((s.setEscPend 0#1).raise .escape)

/-- `ESC_DEC_FLUSH` (R147): a pending `0xDB` is a trailing one. -/
def execEscDecFlush (s : State) : Host.Outcome State Fault Refusal :=
  if s.escPend = 1#1 then .next ((s.setEscPend 0#1).raise .escape)
  else .next (s.complete Response.done)

/-- `ESC_DEC_BLOCK` (R148): the whole input is unescaped before the capacity is checked (92_eei_decisions.md D12). -/
def execEscDecBlock (s : State) : Host.Outcome State Fault Refusal :=
  .next (s.answer (s.readSrc.bind fun src => (unescSeq src).bind fun v => fitCap s.operands.cap v) Response.ofOut)

end Sys2Proof.Machine
end

