-- ==== Sys2Proof/Machine/Frame.lean ====
section
/-!
DEFINITION. The frame unit (42_frame.md): header serialization and parsing, frame encode and decode, and the meanings of
the two frame commands. It uses `crc16`, `escSeq` and `unescSeq` as functions and touches neither `CRC_ACC` nor
`ESC_PEND` (R163).
-/
namespace Sys2Proof.Machine

/-- The 7 octets of a DeviceId (R161). -/
def serDevice (x : DeviceId) : List Byte := le3 x.adminCode ++ le2 x.deviceType ++ le2 x.deviceId

/-- Header and content, little-endian (R161, 30_encoding.md R91): `20 + len(content)` octets. -/
def ser (t : DataTable) : List Byte :=
  le2 t.linkAddr ++ serDevice t.sender ++ serDevice t.receiver
    ++ [t.protocolVersion, t.operation] ++ le2 t.objectId ++ t.content

/-- The DeviceId whose 7 octets start at offset `i` (R162). -/
def parseDevice (h : List Byte) (i : Nat) : DeviceId :=
  { adminCode  := le24 (byteAt h i) (byteAt h (i + 1)) (byteAt h (i + 2))
    deviceType := le16 (byteAt h (i + 3)) (byteAt h (i + 4))
    deviceId   := le16 (byteAt h (i + 5)) (byteAt h (i + 6)) }

/-- Header parse (R162), for `len(h) >= 20`, which is where R171 applies it (log 8). -/
def parse (h : List Byte) : DataTable :=
  { linkAddr        := le16 (byteAt h 0) (byteAt h 1)
    sender          := parseDevice h 2
    receiver        := parseDevice h 9
    protocolVersion := byteAt h 16
    operation       := byteAt h 17
    objectId        := le16 (byteAt h 18) (byteAt h 19)
    content         := h.drop hdrLen }

/-- A sequence with its CRC appended, low byte first (R160 step 3, 20_memory.md R53). -/
def withCrc (h : List Byte) : List Byte := h ++ le2 (crc16 h)

/-- The unescaped sequence `u` of a table's frame (30_encoding.md R91). -/
def unescaped (t : DataTable) : List Byte := withCrc (ser t)

/-- A sequence between two delimiters, escaped (R160 steps 4 and 5, 30_encoding.md R92). -/
def enclose (u : List Byte) : List Byte := [delim] ++ escSeq u ++ [delim]

/-- Frame encode (R160): the content length is checked before the capacity (92_eei_decisions.md D18, D21). -/
def frameEncode (t : DataTable) (cap : Nat) : Except Status (List Byte) :=
  if t.content.length > maxContent then .error .invalidParam
  else fitCap cap (enclose (unescaped t))

/-- Steps 3 to 5 of frame decode (R171), on the unescaped sequence: `INCOMPLETE`, then `OVERSIZE`, then `CRC` (R172). The header
is not validated (R173). -/
def decodeUnescaped (u : List Byte) : Except Status DataTable :=
  if u.length < minUnesc then .error .incomplete
  else if u.length > maxUnesc ∨ u.length - minUnesc > maxContent then .error .oversize
  else if crc16 (slice u 0 (u.length - 3)) ≠ le16 (byteAt u (u.length - 2)) (byteAt u (u.length - 1)) then .error .crc
  else .ok (parse (slice u 0 (u.length - 3)))

/-- Frame decode (R171): the delimiters first, then the escapes of the whole interior, then the unescaped sequence. -/
def frameDecode (w : List Byte) : Except Status DataTable :=
  if w.length < 2 then .error .format
  else if byteAt w 0 ≠ delim then .error .format
  else if byteAt w (w.length - 1) ≠ delim then .error .format
  else (unescSeq (slice w 1 (w.length - 2))).bind decodeUnescaped

/-- `FRAME_ENCODE` (R180). -/
def execFrameEncode (s : State) : Host.Outcome State Fault Refusal :=
  .next (s.answer (frameEncode s.operands.tbl s.operands.cap) Response.ofOut)

/-- `FRAME_DECODE` (R181). -/
def execFrameDecode (s : State) : Host.Outcome State Fault Refusal :=
  .next (s.answer (s.readSrc.bind frameDecode) Response.ofTbl)

end Sys2Proof.Machine
end

