-- ==== Sys2Proof/Machine/Dispatch.lean ====
section
/-! DEFINITION. One arm per command (30_encoding.md R73, R75 "dispatch to the rule of opc"). -/
namespace Sys2Proof.Machine

def exec (i : Instr) (s : State) : Host.Outcome State Fault Refusal :=
  match i with
  | .crcInit => Sys2Proof.Machine.execCrcInit s
  | .crcUpdate d => Sys2Proof.Machine.execCrcUpdate d s
  | .crcRead => Sys2Proof.Machine.execCrcRead s
  | .crcBlock => Sys2Proof.Machine.execCrcBlock s
  | .escEncByte d => Sys2Proof.Machine.execEscEncByte d s
  | .escEncBlock => Sys2Proof.Machine.execEscEncBlock s
  | .escDecReset => Sys2Proof.Machine.execEscDecReset s
  | .escDecByte d => Sys2Proof.Machine.execEscDecByte d s
  | .escDecFlush => Sys2Proof.Machine.execEscDecFlush s
  | .escDecBlock => Sys2Proof.Machine.execEscDecBlock s
  | .frameEncode => Sys2Proof.Machine.execFrameEncode s
  | .frameDecode => Sys2Proof.Machine.execFrameDecode s
  | .statRead => Sys2Proof.Machine.execStatRead s
  | .softReset => Sys2Proof.Machine.execSoftReset s

end Sys2Proof.Machine
end

