-- ==== Sys2Proof/Decode.lean ====
section
/-!
DEFINITION. The command word (30_encoding.md Part 1): its fields, the opcode map, the decoder, total on every 16-bit
word and rejecting by name, and the encoder. A command word is always 16 bits and is a value, not bytes (R56, R77).
-/
namespace Sys2Proof

/-- R70: `OPC = CW[7:0]`. -/
def cwOpc (w : Word16) : Byte := w.extractLsb' 0 8

/-- R70: `DATA = CW[15:8]`. -/
def cwData (w : Word16) : Byte := w.extractLsb' 8 8

/-- The command word with the given `DATA` and `OPC` (R70, R73: `(d << 8) | OPC`). -/
def cwOf (data opc : Byte) : Word16 := (data.setWidth 16 <<< 8) ||| opc.setWidth 16

/-- A row of the opcode map: its format (R72) and the command it selects. -/
inductive OpRow where
  /-- `CW-N`: no operand in the word, `DATA` must be 0x00. -/
  | cwN (i : Instr)
  /-- `CW-D`: `DATA` is the byte operand. -/
  | cwD (i : Byte → Instr)

/-- The opcode map (R73); every other `OPC` is reserved (R76). -/
def opcodeRow (opc : Byte) : Option OpRow :=
  if opc = 0x01#8 then some (.cwN .crcInit)
  else if opc = 0x02#8 then some (.cwD .crcUpdate)
  else if opc = 0x03#8 then some (.cwN .crcRead)
  else if opc = 0x04#8 then some (.cwN .crcBlock)
  else if opc = 0x10#8 then some (.cwD .escEncByte)
  else if opc = 0x11#8 then some (.cwN .escEncBlock)
  else if opc = 0x18#8 then some (.cwN .escDecReset)
  else if opc = 0x19#8 then some (.cwD .escDecByte)
  else if opc = 0x1A#8 then some (.cwN .escDecFlush)
  else if opc = 0x1B#8 then some (.cwN .escDecBlock)
  else if opc = 0x20#8 then some (.cwN .frameEncode)
  else if opc = 0x21#8 then some (.cwN .frameDecode)
  else if opc = 0xF0#8 then some (.cwN .statRead)
  else if opc = 0xFF#8 then some (.cwN .softReset)
  else none

/-- Why a command word is rejected (R75). Both are the block's status `ILLEGAL_CMD`; the names are the model's own. -/
inductive DecodeError where
  /-- `OPC` is not in the opcode map (R75, R76). -/
  | reservedOpcode (opc : Byte)
  /-- A `CW-N` command with `DATA` other than 0x00 (R72, R75). -/
  | nonzeroData (opc data : Byte)
deriving DecidableEq, Repr

/-- Command decode (R75), before any operand is read. -/
def decode (w : Word16) : Except DecodeError Instr :=
  match opcodeRow (cwOpc w) with
  | none => .error (.reservedOpcode (cwOpc w))
  | some (.cwD i) => .ok (i (cwData w))
  | some (.cwN i) => if cwData w = 0x00#8 then .ok i else .error (.nonzeroData (cwOpc w) (cwData w))

/-- The command word of a command (R73): `0x00` and `OPC` for `CW-N`, `(d << 8) | OPC` for `CW-D`. -/
def encode : Instr → Word16
  | .crcInit      => cwOf 0x00#8 0x01#8
  | .crcUpdate d  => cwOf d 0x02#8
  | .crcRead      => cwOf 0x00#8 0x03#8
  | .crcBlock     => cwOf 0x00#8 0x04#8
  | .escEncByte d => cwOf d 0x10#8
  | .escEncBlock  => cwOf 0x00#8 0x11#8
  | .escDecReset  => cwOf 0x00#8 0x18#8
  | .escDecByte d => cwOf d 0x19#8
  | .escDecFlush  => cwOf 0x00#8 0x1A#8
  | .escDecBlock  => cwOf 0x00#8 0x1B#8
  | .frameEncode  => cwOf 0x00#8 0x20#8
  | .frameDecode  => cwOf 0x00#8 0x21#8
  | .statRead     => cwOf 0x00#8 0xF0#8
  | .softReset    => cwOf 0x00#8 0xFF#8

/-- A word numbered as spec/opcode_table.json numbers it, of `nbits` bits, as the 16-bit command word: bits from `nbits`
up are zero, and a command word has no bit above 15 (R77; log 6). -/
def tableWord (nbits w : Nat) : Word16 := BitVec.ofNat 16 (w % 2 ^ nbits)

/-- What the decoder reads from an instruction whose bits are `w`, as the opcode table numbers them; `none` where it
rejects. A command word has no byte representation (R56), so it is given to the decoder as it is. -/
def decodeTableWord (nbits w : Nat) : Option Instr :=
  match decode (tableWord nbits w) with
  | .ok i => some i
  | .error _ => none

end Sys2Proof
end

