-- ==== Sys2Proof/Machine/Fetch.lean ====
section
/-!
DEFINITION. What the block finds on its command port. It fetches no instructions (10_state.md R34): the host presents a
command word and its operands, and this file reads the port and decodes the word (30_encoding.md R71, R75).
-/
namespace Sys2Proof.Machine

/-- What is on the port: nothing, a power-on reset, a command word that decode rejects, or a command. -/
inductive Fetched where
  | idle
  | powerOn
  | illegal (e : DecodeError)
  | instr (i : Instr)
deriving DecidableEq, Repr

/-- Read the command port and decode the word there (R75). -/
def fetch (s : State) : Fetched :=
  match s.script with
  | [] => .idle
  | .powerOnReset _ :: _ => .powerOn
  | .command t :: _ =>
    match decode t.cw with
    | .ok i => .instr i
    | .error e => .illegal e

/-- Put a command word on the port, keeping the operand bundle that is there (R71; log 6). Events after the head of the
host's script stay. -/
def State.placeWord (s : State) (w : Word16) : State :=
  { s with script := .command { cw := w, ops := s.operands } :: s.script.tail }

end Sys2Proof.Machine
end

