-- ==== Sys2Proof/Machine/Step.lean ====
section
/-!
DEFINITION. One step: one transaction of the host with the block, atomic and without duration (10_state.md R30, 20_memory.md
R60, 70_reset_and_hazards.md R250).
-/
namespace Sys2Proof.Machine

/-- One step. With nothing on the port the state does not change (R30, R227). A power-on reset falls between two commands
(R242). A word that decode rejects is `ILLEGAL_CMD` (R75, R216). A command is executed. -/
def step (s : State) : Host.Outcome State Fault Refusal :=
  match fetch s with
  | .idle => .next s
  | .powerOn => .next s.powerOn
  | .illegal _ => .next s.illegalCommand
  | .instr i => exec i s

/-- `s` with the given table word on the command port, so that the next `step` runs it (log 6). -/
def State.withFetchWord (s : State) (nbits w : Nat) : State := s.placeWord (tableWord nbits w)

end Sys2Proof.Machine
end

