-- ==== Sys2Proof/Machine/Asm.lean ====
section
/-!
DEFINITION. The assembler lines of 30_encoding.md R78: a mnemonic and its operands, as text, to the transaction that issues the
command. It is a tool beside the block; the block itself sees command words and operand bundles only. Text is a list of
characters. What R78 leaves open is in log 11.
-/
namespace Sys2Proof.Asm

/-- Why the assembler refuses a line (R78); it then emits no word. R78 gives no names; these are the model's (log 11). -/
inductive AsmError where
  /-- The first word of the line is no mnemonic of R73. -/
  | unknownMnemonic
  /-- An operand is missing, is not of the form R78 gives it, or one is too many. -/
  | badOperand
  /-- A byte operand outside `0`..`255`. -/
  | byteRange
  /-- `tbl=<name>` names no table given beside the program. -/
  | unknownTable
deriving DecidableEq, Repr

/-- What a mnemonic's operands are (R73, R78). -/
inductive Shape where
  | none (i : Instr)
  | byte (i : Byte → Instr)
  | src (i : Instr)
  | srcCap (i : Instr)
  | tblCap (i : Instr)

/-- The mnemonics of R73 with their operands. Any other first word is refused (log 11). -/
def shapeOf (m : List Char) : Option Shape :=
  if m = "CRC_INIT".toList then some (.none .crcInit)
  else if m = "CRC_UPDATE".toList then some (.byte .crcUpdate)
  else if m = "CRC_READ".toList then some (.none .crcRead)
  else if m = "CRC_BLOCK".toList then some (.src .crcBlock)
  else if m = "ESC_ENC_BYTE".toList then some (.byte .escEncByte)
  else if m = "ESC_ENC_BLOCK".toList then some (.srcCap .escEncBlock)
  else if m = "ESC_DEC_RESET".toList then some (.none .escDecReset)
  else if m = "ESC_DEC_BYTE".toList then some (.byte .escDecByte)
  else if m = "ESC_DEC_FLUSH".toList then some (.none .escDecFlush)
  else if m = "ESC_DEC_BLOCK".toList then some (.srcCap .escDecBlock)
  else if m = "FRAME_ENCODE".toList then some (.tblCap .frameEncode)
  else if m = "FRAME_DECODE".toList then some (.src .frameDecode)
  else if m = "STAT_READ".toList then some (.none .statRead)
  else if m = "SOFT_RESET".toList then some (.none .softReset)
  else Option.none

/-- The digits of the number systems R78 writes operands in, each at the place of its value. -/
def digits (base : Nat) : List Char := "0123456789ABCDEF".toList.take base

/-- A decimal digit: its place among the ten. -/
def decDigit (c : Char) : Option Nat := (digits 10).idxOf? c

/-- A hexadecimal digit: its place among the sixteen, with small letters read as the capitals R78 writes (log 11). -/
def hexDigit (c : Char) : Option Nat := (digits 16).idxOf? c.toUpper

/-- The value of a digit string in a base; `none` when it is empty or holds another character. -/
def number (base : Nat) (digit : Char → Option Nat) : List Char → Option Nat
  | [] => none
  | cs => cs.foldl (fun acc c => acc.bind fun n => (digit c).map fun d => n * base + d) (some 0)

/-- A byte operand: `0xHH` or decimal (R78). A value outside `0`..`255` is an assembly error. -/
def byteOperand (cs : List Char) : Except AsmError Byte :=
  let value := match cs with
    | '0' :: 'x' :: hs => number 16 hexDigit hs
    | ds => number 10 decDigit ds
  match value with
  | none => .error .badOperand
  | some n => if byteOperandOk n then .ok (BitVec.ofNat 8 n) else .error .byteRange

/-- Split at every occurrence of a character. -/
def splitAt (sep : Char) : List Char → List (List Char)
  | [] => [[]]
  | c :: cs =>
    if c = sep then [] :: splitAt sep cs
    else match splitAt sep cs with
      | [] => [[c]]
      | p :: ps => (c :: p) :: ps

/-- One byte of `src=[HH HH ...]`: two hexadecimal digits. -/
def hexByte : List Char → Option Byte
  | [a, b] => (hexDigit a).bind fun x => (hexDigit b).map fun y => BitVec.ofNat 8 (x * 16 + y)
  | _ => none

/-- What stands after the given text, if the characters begin with it. -/
def after (key : List Char) (cs : List Char) : Option (List Char) :=
  if cs.take key.length = key then some (cs.drop key.length) else none

/-- `src=[HH HH ...]`, `src=[]` for the empty sequence (R78). -/
def srcOperand (cs : List Char) : Except AsmError (List Byte) :=
  match after "src=[".toList cs with
  | none => .error .badOperand
  | some rest =>
    if rest.getLast? ≠ some ']' then .error .badOperand
    else if rest.dropLast = [] then .ok []
    else match (splitAt ' ' rest.dropLast).mapM hexByte with
      | some bs => .ok bs
      | none => .error .badOperand

/-- `cap=N`, decimal (R78). -/
def capOperand (cs : List Char) : Except AsmError Nat :=
  match (after "cap=".toList cs).bind (number 10 decDigit) with
  | some n => .ok n
  | none => .error .badOperand

/-- `tbl=<name>` naming a table given in full beside the program (R78). Where two tables bear one name, it is the first in the
list: DESIGN CHOICE, log 11, since R78 does not say. -/
def tblOperand (tables : List (List Char × DataTable)) (cs : List Char) : Except AsmError DataTable :=
  match after "tbl=".toList cs with
  | none => .error .badOperand
  | some name =>
    match tables.find? (fun p => p.1 == name) with
    | some p => .ok p.2
    | none => .error .unknownTable

/-- Split at `, ` (R78). -/
def splitOperands : List Char → List (List Char)
  | [] => [[]]
  | ',' :: ' ' :: cs => [] :: splitOperands cs
  | c :: cs =>
    match splitOperands cs with
    | [] => [[c]]
    | p :: ps => (c :: p) :: ps

/-- The operands of a line, given those of its shape, in the order `src`, `cap` or `tbl`, `cap` (R78). What the command
does not read is left empty in the bundle (R71: it may hold anything). -/
def operandsFor (tables : List (List Char × DataTable)) (shape : Shape) (ops : List (List Char)) :
    Except AsmError Transaction :=
  match shape, ops with
  | .none i, [] => .ok { cw := encode i, ops := OperandBundle.empty }
  | .byte i, [o] => (byteOperand o).map fun d => { cw := encode (i d), ops := OperandBundle.empty }
  | .src i, [o] => (srcOperand o).map fun src => { cw := encode i, ops := { OperandBundle.empty with src := src } }
  | .srcCap i, [o, c] => (srcOperand o).bind fun src => (capOperand c).map fun cap =>
      { cw := encode i, ops := { OperandBundle.empty with src := src, cap := cap } }
  | .tblCap i, [o, c] => (tblOperand tables o).bind fun tbl => (capOperand c).map fun cap =>
      { cw := encode i, ops := { OperandBundle.empty with tbl := tbl, cap := cap } }
  | _, _ => .error .badOperand

/-- The line without its comment (R78: `;` to the end of the line) and without the blanks around it (log 11). -/
def stripped (line : List Char) : List Char :=
  ((((line.takeWhile (fun c => c ≠ ';')).dropWhile (fun c => c = ' ')).reverse).dropWhile (fun c => c = ' ')).reverse

/-- One line (R78): `none` for a line with nothing but a comment or blanks (log 11), else the transaction that issues the
command. -/
def assembleLine (tables : List (List Char × DataTable)) (line : List Char) : Except AsmError (Option Transaction) :=
  let text := stripped line
  if text = [] then .ok none
  else
    let mnemonic := text.takeWhile (fun c => c ≠ ' ')
    let rest := (text.dropWhile (fun c => c ≠ ' ')).drop 1
    match shapeOf mnemonic with
    | none => .error .unknownMnemonic
    | some shape => (operandsFor tables shape (if rest = [] then [] else splitOperands rest)).map some

/-- A program, line by line. A refused line refuses the whole program, with the error of the first such line, and no transaction
of any line is emitted: DESIGN CHOICE, log 11, since R78 speaks of the refused operand's own word only. -/
def assemble (tables : List (List Char × DataTable)) : List (List Char) → Except AsmError (List Transaction)
  | [] => .ok []
  | line :: lines =>
    (assembleLine tables line).bind fun t => (assemble tables lines).map fun ts => t.toList ++ ts

end Sys2Proof.Asm
end

