-- ==== Sys2Proof/Machine/Pseudo.lean ====
section
/-!
DEFINITION. The pseudo-instructions (30_encoding.md R79): each expands to a fixed sequence of commands. Their effect is that of
the expansion; nothing of the block knows them.
-/
namespace Sys2Proof

/-- A pseudo-instruction over a byte sequence (R79). -/
inductive Pseudo where
  | crcSeq (bs : List Byte)
  | escEncSeq (bs : List Byte)
  | escDecSeq (bs : List Byte)
deriving DecidableEq, Repr

/-- The expansion (R79). With no byte, `CRC_SEQ` is `CRC_INIT` alone, `ESC_ENC_SEQ` is nothing and `ESC_DEC_SEQ` is
`ESC_DEC_RESET; ESC_DEC_FLUSH`. -/
def Pseudo.expand : Pseudo → List Instr
  | .crcSeq bs    => .crcInit :: bs.map .crcUpdate
  | .escEncSeq bs => bs.map .escEncByte
  | .escDecSeq bs => .escDecReset :: bs.map .escDecByte ++ [.escDecFlush]

/-- The transaction that issues a command with an operand bundle: its command word (R73) and the bundle (R71). -/
def Instr.issue (i : Instr) (ops : OperandBundle) : Transaction := { cw := encode i, ops := ops }

/-- The transactions of a pseudo-instruction; its commands read no operand of the bundle (R73, R79). -/
def Pseudo.issue (p : Pseudo) : List Transaction := p.expand.map (fun i => i.issue OperandBundle.empty)

end Sys2Proof
end

