-- ==== Sys2Proof/Safety.lean ====
section
/-!
DEFINITION. The terms in which statements about the block are made: the state a whole transaction leaves, what a good state is,
and the caller's contract for frames.
-/
namespace Sys2Proof.Machine

/-- The state after a transaction that leaves the three registers at the given values and returns `r`. It names every
field, so an equation with it is the instruction's whole frame: the host's script loses the transaction, the
response joins the others, and `MAX_SRC` stays (R30, R60, R63). No meaning of the machine uses it. -/
def State.after (s : State) (crcAcc : Word16) (escPend : BitVec 1) (status : BitVec 4) (r : Response) : State :=
  { crcAcc := crcAcc, escPend := escPend, status := status, maxSrc := s.maxSrc,
    script := s.script.tail, responses := s.responses ++ [r] }

/-- `len(SRC) <= MAX_SRC`, whatever `MAX_SRC` is (R8, R74). -/
def State.SrcFits (s : State) : Prop := ∀ m, s.maxSrc = some m → s.operands.src.length ≤ m

/-- A word with this `CW-N` opcode and a non-zero `DATA` byte is `ILLEGAL_CMD` (R72, R75, R216): the step writes `STATUS` and
no other register and returns no output, whatever the operands are. -/
def RejectsData (opc : Byte) : Prop :=
  ∀ (s : State) (d : Byte) (ops : OperandBundle) (rest : List HostEvent), d ≠ 0#8 →
    s.script = .command { cw := (d.setWidth 16 <<< 8) ||| opc.setWidth 16, ops := ops } :: rest →
    step s = .next (s.after s.crcAcc s.escPend 8#4 ⟨.illegalCmd, [], none, none⟩)

/-- `STATUS.CODE` holds a status code of R85; `9`..`15` are never written (R35). -/
abbrev State.StatusLegal (s : State) : Prop := s.status.toNat ≤ 8

/-- A response that reports an error carries no data (R213). -/
abbrev Response.ErrorIsEmpty (r : Response) : Prop :=
  r.status ≠ .ok → r.out = [] ∧ r.val = none ∧ r.tbl = none

/-- A table in a response has content the serializer accepts (R171: a frame with more is `OVERSIZE`). -/
def Response.TableFits (r : Response) : Prop := ∀ t, r.tbl = some t → t.content.length ≤ 1500

/-- The invariant of a run: the status is a code of R85 (R35), no error returned data (R213), and every table returned fits
(R171). -/
def State.Inv (s : State) : Prop :=
  s.StatusLegal ∧ ∀ r ∈ s.responses, r.ErrorIsEmpty ∧ r.TableFits

/-- What the reassembler hands the frame codec (42_frame.md R175): a slice that starts and ends with `0xC0`, has none
inside, and has at least two bytes. -/
def CandidateFrame (w : List Byte) : Prop :=
  ∃ interior, w = [0xC0#8] ++ interior ++ [0xC0#8] ∧ 0xC0#8 ∉ interior

/-- `k` steps of the machine, stopping at the first fault or refusal: `Host.Core.run Sys2Proof.core` under this model's own types. -/
def run : Nat → State → Host.Outcome State Fault Refusal
  | 0, s => .next s
  | k + 1, s =>
    match step s with
    | .next t => run k t
    | .fault r => .fault r
    | .refused r => .refused r

/-- Transactions as events of the host's script (R71). -/
def commands (ts : List Transaction) : List HostEvent := ts.map HostEvent.command

end Sys2Proof.Machine
end

