-- ==== Sys2Proof/Certificates/Slice0/Obligations.lean ====
section
/-!
DEFINITION. The statements for the provers, from the numbered rules of spec/. A statement about a command gives the whole next
state as `s.after crcAcc escPend status response` (Safety.lean), so it is the command's result and its frame at once.
-/
open Sys2Proof Sys2Proof.Machine

/-! ## Command words -/

/-- 30_encoding.md R73 (its opcode column): the decoder on words written out from the opcode map, one for every command, with a
`DATA` byte where the format is `CW-D`. -/
def Obligations.OpcodeMapWords : Prop :=
  decode 0x0001#16 = .ok .crcInit ∧ decode 0xFF02#16 = .ok (.crcUpdate 0xFF#8) ∧
  decode 0x0003#16 = .ok .crcRead ∧ decode 0x0004#16 = .ok .crcBlock ∧
  decode 0xC010#16 = .ok (.escEncByte 0xC0#8) ∧ decode 0x0011#16 = .ok .escEncBlock ∧
  decode 0x0018#16 = .ok .escDecReset ∧ decode 0xDB19#16 = .ok (.escDecByte 0xDB#8) ∧
  decode 0x001A#16 = .ok .escDecFlush ∧ decode 0x001B#16 = .ok .escDecBlock ∧
  decode 0x0020#16 = .ok .frameEncode ∧ decode 0x0021#16 = .ok .frameDecode ∧
  decode 0x00F0#16 = .ok .statRead ∧ decode 0x00FF#16 = .ok .softReset

/-- Decode and encode agree on every 16-bit word and every command: a word decodes to `i` exactly when it is the word of `i`
(30_encoding.md Part 1). -/
def Obligations.DecodeEncodeAgree : Prop :=
  ∀ (w : Word16) (i : Instr), decode w = .ok i ↔ encode i = w

/-- R75, R216: a word with an opcode outside R73, or with a non-zero `DATA` byte on a `CW-N` opcode, writes `STATUS <- ILLEGAL_CMD`
and no other register, reads no operand and returns no output; every other word dispatches to the command whose
word it is. -/
def Obligations.CommandWordDecode : Prop :=
  ∀ (s : State) (w : Word16) (ops : OperandBundle) (rest : List HostEvent),
    s.script = .command { cw := w, ops := ops } :: rest →
    if w.extractLsb' 0 8 ∉ [0x01#8, 0x02#8, 0x03#8, 0x04#8, 0x10#8, 0x11#8, 0x18#8, 0x19#8, 0x1A#8, 0x1B#8, 0x20#8, 0x21#8,
          0xF0#8, 0xFF#8] ∨
        (w.extractLsb' 0 8 ∉ [0x02#8, 0x10#8, 0x19#8] ∧ w.extractLsb' 8 8 ≠ 0#8) then
      step s = .next (s.after s.crcAcc s.escPend 8#4 ⟨.illegalCmd, [], none, none⟩)
    else ∃ i, encode i = w ∧ step s = exec i s

/-- A step runs the decoded command: when the word on the port decodes to `i`, the step is `exec i`, and the operands `exec`
reads are those of that transaction (30_encoding.md R71, R75). Nothing is added around `exec` on this hardware:
there is no program counter (R34). -/
def Obligations.StepRunsDecoded : Prop :=
  ∀ (s : State) (t : Transaction) (rest : List HostEvent) (i : Instr),
    s.script = .command t :: rest → decode t.cw = .ok i → step s = exec i s ∧ s.operands = t.ops

/-- The model's own loading point (log 6): a command's table word put on the port is decoded to that command, and the very next
step runs it. -/
def Obligations.PlacedWordRunsNext : Prop :=
  ∀ (s : State) (i : Instr),
    decodeTableWord 16 (encode i).toNat = some i ∧
    step (s.withFetchWord 16 (encode i).toNat) = exec i (s.withFetchWord 16 (encode i).toNat)

/-- 30_encoding.md R85, its numbers: the nine status codes, and no status for the codes 9 to 15. -/
def Obligations.StatusCodeNumbers : Prop :=
  Status.ok.code = 0#4 ∧ Status.invalidParam.code = 1#4 ∧ Status.bufferSmall.code = 2#4 ∧ Status.format.code = 3#4 ∧
  Status.escape.code = 4#4 ∧ Status.incomplete.code = 5#4 ∧ Status.crc.code = 6#4 ∧ Status.oversize.code = 7#4 ∧
  Status.illegalCmd.code = 8#4 ∧ (∀ e, Status.ofCode e.code = some e) ∧ ∀ c : BitVec 4, 9 ≤ c.toNat → Status.ofCode c = none

/-! ## Reset and idling -/

/-- R240: the registers after power-on reset, no command outstanding, and any command accepted as the first: the step executes
it, whatever its operands, and its one response is not `ILLEGAL_CMD`. -/
def Obligations.ResetStateValues : Prop :=
  State.reset.crcAcc = 0xFFFF#16 ∧ State.reset.escPend = 0#1 ∧ State.reset.status = 0#4 ∧ State.reset.script = [] ∧
  ∀ (i : Instr) (ops : OperandBundle),
    step { State.reset with script := [.command (i.issue ops)] } =
      exec i { State.reset with script := [.command (i.issue ops)] } ∧
    ∃ t r, exec i { State.reset with script := [.command (i.issue ops)] } = .next t ∧
      t.responses = [r] ∧ r.status ≠ .illegalCmd ∧ t.script = []

/-- R227: with no command issued, nothing changes, however long. -/
def Obligations.IdleKeepsRegisters : Prop :=
  ∀ (k : Nat) (s : State), s.script = [] → run k s = .next s

/-- 70_reset_and_hazards.md R240 to R242 (power-on reset as an event of the host's script is the model's form, log 3): the three registers
take their reset values, which are also those `SOFT_RESET` leaves; a command outstanding at that moment has no
response. -/
def Obligations.PowerOnResetEvent : Prop :=
  ∀ (s : State) (outstanding : Option Transaction) (rest : List HostEvent),
    s.script = .powerOnReset outstanding :: rest →
    step s = .next { crcAcc := 0xFFFF#16, escPend := 0#1, status := 0#4, maxSrc := s.maxSrc,
                     script := rest, responses := s.responses }

/-! ## CRC unit -/

/-- R120: `CRC_INIT`. -/
def Obligations.CrcInitResult : Prop :=
  encode .crcInit = 0x0001#16 ∧ RejectsData 0x01#8 ∧
  ∀ s : State, exec .crcInit s = .next (s.after 0xFFFF#16 s.escPend 0#4 ⟨.ok, [], none, none⟩)

/-- R110, R121: `CRC_UPDATE d` absorbs one byte: xor into the low end, then eight conditional shifts. -/
def Obligations.CrcUpdateResult : Prop :=
  ∀ (d : Byte), encode (.crcUpdate d) = (d.setWidth 16 <<< 8) ||| 0x0002#16 ∧
  ∀ s : State, exec (.crcUpdate d) s = .next (s.after
    ((List.range 8).foldl (fun (c : Word16) _ => if c &&& 1#16 = 1#16 then (c >>> 1) ^^^ 0xA001#16 else c >>> 1)
      (s.crcAcc ^^^ d.setWidth 16))
    s.escPend 0#4 ⟨.ok, [], none, none⟩)

/-- R122: `CRC_READ` returns the accumulator as it stands. -/
def Obligations.CrcReadResult : Prop :=
  encode .crcRead = 0x0003#16 ∧ RejectsData 0x03#8 ∧
  ∀ s : State, exec .crcRead s = .next (s.after s.crcAcc s.escPend 0#4 ⟨.ok, [], some s.crcAcc, none⟩)

/-- R111, R123: `CRC_BLOCK` computes the CRC of `SRC` from 0xFFFF, whatever `CRC_ACC` held, and leaves it there; a `SRC` longer than a
fixed `MAX_SRC` is `INVALID_PARAM` and leaves `CRC_ACC`. -/
def Obligations.CrcBlockResult : Prop :=
  encode .crcBlock = 0x0004#16 ∧ RejectsData 0x04#8 ∧
  (∀ s : State, s.SrcFits →
    exec .crcBlock s = .next (s.after (s.operands.src.foldl crcStep 0xFFFF#16) s.escPend 0#4
      ⟨.ok, [], some (s.operands.src.foldl crcStep 0xFFFF#16), none⟩)) ∧
  ∀ s : State, ¬ s.SrcFits →
    exec .crcBlock s = .next (s.after s.crcAcc s.escPend 1#4 ⟨.invalidParam, [], none, none⟩)

/-- 40_crc.md, the sentences of R112: the table of R112 has 256 entries, entry `i` is `crc_step(0x0000, i)`, and the table step is the
byte step for every accumulator and byte. -/
def Obligations.CrcTableEqualsBitwise : Prop :=
  crcTable.length = 256 ∧ (∀ d : Byte, crcTable[d.toNat]? = some (crcStep 0x0000#16 d)) ∧
  ∀ (c : Word16) (d : Byte), crcStepT c d = crcStep c d

/-- 40_crc.md, R113: a sequence with its CRC appended low byte first has the CRC 0x0000. -/
def Obligations.CrcResidueZero : Prop :=
  ∀ bs : List Byte, crc16 (bs ++ [(crc16 bs).extractLsb' 0 8, (crc16 bs).extractLsb' 8 8]) = 0x0000#16

/-- Two sequences that differ in exactly one byte have different CRCs (from the byte step of 40_crc.md R110). -/
def Obligations.CrcTellsOneByteApart : Prop :=
  ∀ (p q : List Byte) (a b : Byte), a ≠ b → crc16 (p ++ a :: q) ≠ crc16 (p ++ b :: q)

/-- 40_crc.md, the sentence of R124: `CRC_SEQ` over the bytes and then `CRC_READ` returns the same `val` as `CRC_BLOCK` of the bytes, and both
leave it in `CRC_ACC` with `STATUS = OK`. The streamed commands read no operand of the bundle; here each carries the empty one,
the model's choice (log 7), and UnnamedOperandsAreIgnored says that any other makes no difference. -/
def Obligations.CrcStreamEqualsBlock : Prop :=
  (∀ (s : State) (bs : List Byte) (rest : List HostEvent),
    s.script = commands ((Pseudo.crcSeq bs).issue ++ [Instr.crcRead.issue OperandBundle.empty]) ++ rest →
    ∃ rs, rs.length = bs.length + 1 ∧ (∀ r ∈ rs, r = ⟨.ok, [], none, none⟩) ∧
      run (bs.length + 2) s = .next
        { crcAcc := crc16 bs, escPend := s.escPend, status := 0#4, maxSrc := s.maxSrc, script := rest,
          responses := s.responses ++ rs ++ [⟨.ok, [], some (crc16 bs), none⟩] }) ∧
  ∀ (s : State) (bs : List Byte), s.operands.src = bs → s.SrcFits →
    exec .crcBlock s = .next (s.after (crc16 bs) s.escPend 0#4 ⟨.ok, [], some (crc16 bs), none⟩)

/-! ## Escape unit -/

/-- R130, R140: `ESC_ENC_BYTE d`. -/
def Obligations.EscEncByteResult : Prop :=
  ∀ (d : Byte), encode (.escEncByte d) = (d.setWidth 16 <<< 8) ||| 0x0010#16 ∧
  ∀ s : State, exec (.escEncByte d) s = .next (s.after s.crcAcc s.escPend 0#4
    ⟨.ok, if d = 0xC0#8 then [0xDB#8, 0xDC#8] else if d = 0xDB#8 then [0xDB#8, 0xDD#8] else [d], none, none⟩)

/-- 41_escape.md R130, R131: the escape of a sequence, byte by byte, and its length. -/
def Obligations.EscapeSequenceLength : Prop :=
  ∀ bs : List Byte,
    escSeq bs = bs.flatMap (fun b =>
      if b = 0xC0#8 then [0xDB#8, 0xDC#8] else if b = 0xDB#8 then [0xDB#8, 0xDD#8] else [b]) ∧
    (escSeq bs).length = bs.length + bs.countP (fun b => b == 0xC0#8 || b == 0xDB#8)

/-- R141: `ESC_ENC_BLOCK`: `INVALID_PARAM` for a `SRC` longer than a fixed `MAX_SRC`; else the escape of `SRC` when its length, the
number of bytes plus the number of special ones, is at most `CAP`; else `BUFFER_SMALL` with no output. -/
def Obligations.EscEncBlockResult : Prop :=
  encode .escEncBlock = 0x0011#16 ∧ RejectsData 0x11#8 ∧
  (∀ s : State, ¬ s.SrcFits →
    exec .escEncBlock s = .next (s.after s.crcAcc s.escPend 1#4 ⟨.invalidParam, [], none, none⟩)) ∧
  ∀ s : State, s.SrcFits →
    exec .escEncBlock s = .next (
      if s.operands.src.length + s.operands.src.countP (fun b => b == 0xC0#8 || b == 0xDB#8) ≤ s.operands.cap then
        s.after s.crcAcc s.escPend 0#4 ⟨.ok, escSeq s.operands.src, none, none⟩
      else s.after s.crcAcc s.escPend 2#4 ⟨.bufferSmall, [], none, none⟩)

/-- R145: `ESC_DEC_RESET`. -/
def Obligations.EscDecResetResult : Prop :=
  encode .escDecReset = 0x0018#16 ∧ RejectsData 0x18#8 ∧
  ∀ s : State, exec .escDecReset s = .next (s.after s.crcAcc 0#1 0#4 ⟨.ok, [], none, none⟩)

/-- R146: `ESC_DEC_BYTE d`, every case of `ESC_PEND` and `d`. -/
def Obligations.EscDecByteResult : Prop :=
  ∀ (d : Byte), encode (.escDecByte d) = (d.setWidth 16 <<< 8) ||| 0x0019#16 ∧
  (∀ s : State, s.escPend = 0#1 → exec (.escDecByte d) s = .next (
    if d = 0xDB#8 then s.after s.crcAcc 1#1 0#4 ⟨.ok, [], none, none⟩
    else if d = 0xC0#8 then s.after s.crcAcc 0#1 4#4 ⟨.escape, [], none, none⟩
    else s.after s.crcAcc 0#1 0#4 ⟨.ok, [d], none, none⟩)) ∧
  ∀ s : State, s.escPend = 1#1 → exec (.escDecByte d) s = .next (
    if d = 0xDC#8 then s.after s.crcAcc 0#1 0#4 ⟨.ok, [0xC0#8], none, none⟩
    else if d = 0xDD#8 then s.after s.crcAcc 0#1 0#4 ⟨.ok, [0xDB#8], none, none⟩
    else s.after s.crcAcc 0#1 4#4 ⟨.escape, [], none, none⟩)

/-- R147: `ESC_DEC_FLUSH`. -/
def Obligations.EscDecFlushResult : Prop :=
  encode .escDecFlush = 0x001A#16 ∧ RejectsData 0x1A#8 ∧
  (∀ s : State, s.escPend = 0#1 →
    exec .escDecFlush s = .next (s.after s.crcAcc 0#1 0#4 ⟨.ok, [], none, none⟩)) ∧
  ∀ s : State, s.escPend = 1#1 →
    exec .escDecFlush s = .next (s.after s.crcAcc 0#1 4#4 ⟨.escape, [], none, none⟩)

/-- R132: unescape, case by case, on every byte sequence. -/
def Obligations.UnescapeCases : Prop :=
  unescSeq [] = .ok [] ∧
  (∀ s, unescSeq (0xC0#8 :: s) = .error .escape) ∧
  unescSeq [0xDB#8] = .error .escape ∧
  (∀ s, unescSeq (0xDB#8 :: 0xDC#8 :: s) = (unescSeq s).map (0xC0#8 :: ·)) ∧
  (∀ s, unescSeq (0xDB#8 :: 0xDD#8 :: s) = (unescSeq s).map (0xDB#8 :: ·)) ∧
  (∀ n s, n ≠ 0xDC#8 → n ≠ 0xDD#8 → unescSeq (0xDB#8 :: n :: s) = .error .escape) ∧
  ∀ b s, b ≠ 0xC0#8 → b ≠ 0xDB#8 → unescSeq (b :: s) = (unescSeq s).map (b :: ·)

/-- R148: `ESC_DEC_BLOCK`: `INVALID_PARAM`, then `ESCAPE`, then `BUFFER_SMALL`, else the unescaped sequence. -/
def Obligations.EscDecBlockResult : Prop :=
  encode .escDecBlock = 0x001B#16 ∧ RejectsData 0x1B#8 ∧
  (∀ s : State, ¬ s.SrcFits →
    exec .escDecBlock s = .next (s.after s.crcAcc s.escPend 1#4 ⟨.invalidParam, [], none, none⟩)) ∧
  (∀ s : State, s.SrcFits → unescSeq s.operands.src = .error .escape →
    exec .escDecBlock s = .next (s.after s.crcAcc s.escPend 4#4 ⟨.escape, [], none, none⟩)) ∧
  ∀ (s : State) (v : List Byte), s.SrcFits → unescSeq s.operands.src = .ok v →
    exec .escDecBlock s = .next (
      if v.length ≤ s.operands.cap then s.after s.crcAcc s.escPend 0#4 ⟨.ok, v, none, none⟩
      else s.after s.crcAcc s.escPend 2#4 ⟨.bufferSmall, [], none, none⟩)

/-- 41_escape.md, the sentence of R133: no escaped sequence contains `0xC0`, and every `0xDB` in one is followed by `0xDC` or `0xDD`. -/
def Obligations.EscapedHasNoDelimiter : Prop :=
  ∀ bs : List Byte, 0xC0#8 ∉ escSeq bs ∧
    ∀ i : Nat, (escSeq bs)[i]? = some 0xDB#8 →
      (escSeq bs)[i + 1]? = some 0xDC#8 ∨ (escSeq bs)[i + 1]? = some 0xDD#8

/-- 41_escape.md, the sentence of R134: unescape undoes escape on every sequence, escape undoes unescape on every accepted one, and a
sequence that is the escape of nothing is `ESCAPE`. -/
def Obligations.UnescapeInvertsEscape : Prop :=
  (∀ bs, unescSeq (escSeq bs) = .ok bs) ∧
  (∀ w v, unescSeq w = .ok v → escSeq v = w) ∧
  ∀ w, (∀ v, escSeq v ≠ w) → unescSeq w = .error .escape

/-- 30_encoding.md R79 (its effect column): `ESC_ENC_SEQ` returns the escape of its bytes, in pieces, with every status `OK`. Each
command carries the empty bundle, which it does not read (the model's choice, log 7). -/
def Obligations.StreamingEncoderAgrees : Prop :=
  ∀ (s : State) (bs : List Byte) (rest : List HostEvent),
    s.script = commands (Pseudo.escEncSeq bs).issue ++ rest →
    ∃ t rs, run bs.length s = .next t ∧ t.script = rest ∧
      t.responses = s.responses ++ rs ∧ rs.length = bs.length ∧ (∀ r ∈ rs, r.status = .ok) ∧
      rs.flatMap Response.out = escSeq bs ∧ t.crcAcc = s.crcAcc ∧ t.escPend = s.escPend

/-- 41_escape.md, the sentences of R151: the streaming decoder over `ESC_DEC_SEQ` agrees with `unesc_seq`. It leaves `ESC_PEND = 0`. When the
sequence unescapes to `v`, every response is `OK` and the outputs joined are `v`. When it does not, some response is
`ESCAPE`, and the outputs before the first `ESCAPE` are what precedes the offending escape, unescaped. Each command carries
the empty bundle, which it does not read (the model's choice, log 7). -/
def Obligations.StreamingDecoderAgrees : Prop :=
  ∀ (s : State) (bs : List Byte) (rest : List HostEvent),
    s.script = commands (Pseudo.escDecSeq bs).issue ++ rest →
    ∃ t rs, run (bs.length + 2) s = .next t ∧ t.script = rest ∧
      t.responses = s.responses ++ rs ∧ rs.length = bs.length + 2 ∧ t.escPend = 0#1 ∧ t.crcAcc = s.crcAcc ∧
      (∀ v, unescSeq bs = .ok v → (∀ r ∈ rs, r.status = .ok) ∧ rs.flatMap Response.out = v) ∧
      (unescSeq bs = .error .escape → (∃ r ∈ rs, r.status = .escape) ∧
        ∃ p q v, bs = p ++ q ∧ unescSeq p = .ok v ∧
          (rs.takeWhile (fun r => decide (r.status ≠ .escape))).flatMap Response.out = v ∧
          ((∃ q', q = 0xC0#8 :: q') ∨ q = [0xDB#8] ∨
            ∃ n q', q = 0xDB#8 :: n :: q' ∧ n ≠ 0xDC#8 ∧ n ≠ 0xDD#8))

/-! ## Frame unit -/

/-- R91: the octets of the unescaped sequence, in order, with `L = 22 + n`. -/
def Obligations.UnescapedLayout : Prop :=
  ∀ t : DataTable,
    unescaped t =
      [t.linkAddr.extractLsb' 0 8, t.linkAddr.extractLsb' 8 8,
       t.sender.adminCode.extractLsb' 0 8, t.sender.adminCode.extractLsb' 8 8, t.sender.adminCode.extractLsb' 16 8,
       t.sender.deviceType.extractLsb' 0 8, t.sender.deviceType.extractLsb' 8 8,
       t.sender.deviceId.extractLsb' 0 8, t.sender.deviceId.extractLsb' 8 8,
       t.receiver.adminCode.extractLsb' 0 8, t.receiver.adminCode.extractLsb' 8 8, t.receiver.adminCode.extractLsb' 16 8,
       t.receiver.deviceType.extractLsb' 0 8, t.receiver.deviceType.extractLsb' 8 8,
       t.receiver.deviceId.extractLsb' 0 8, t.receiver.deviceId.extractLsb' 8 8,
       t.protocolVersion, t.operation, t.objectId.extractLsb' 0 8, t.objectId.extractLsb' 8 8] ++ t.content ++
      [(crc16 ((unescaped t).take (20 + t.content.length))).extractLsb' 0 8,
       (crc16 ((unescaped t).take (20 + t.content.length))).extractLsb' 8 8] ∧
    (unescaped t).length = 22 + t.content.length

/-- 42_frame.md, the sentence of R162: parsing undoes serializing on every table, and serializing undoes parsing on every sequence of at
least 20 bytes. -/
def Obligations.ParseInvertsSerialize : Prop :=
  (∀ t : DataTable, parse (ser t) = t) ∧ ∀ h : List Byte, 20 ≤ h.length → ser (parse h) = h

/-- R160, R180: `FRAME_ENCODE`: `INVALID_PARAM` for more than 1500 content bytes; else the delimiter, the escaped header, content and CRC,
and the delimiter, when that is at most `CAP` bytes long; else `BUFFER_SMALL`. -/
def Obligations.FrameEncodeResult : Prop :=
  encode .frameEncode = 0x0020#16 ∧ RejectsData 0x20#8 ∧
  (∀ t : DataTable, unescaped t =
    ser t ++ [(crc16 (ser t)).extractLsb' 0 8, (crc16 (ser t)).extractLsb' 8 8]) ∧
  ∀ s : State, exec .frameEncode s = .next (
    if 1500 < s.operands.tbl.content.length then
      s.after s.crcAcc s.escPend 1#4 ⟨.invalidParam, [], none, none⟩
    else if 24 + s.operands.tbl.content.length
        + (unescaped s.operands.tbl).countP (fun b => b == 0xC0#8 || b == 0xDB#8) ≤ s.operands.cap then
      s.after s.crcAcc s.escPend 0#4 ⟨.ok, [0xC0#8] ++ escSeq (unescaped s.operands.tbl) ++ [0xC0#8], none, none⟩
    else s.after s.crcAcc s.escPend 2#4 ⟨.bufferSmall, [], none, none⟩)

/-- 42_frame.md R164, 30_encoding.md R100 and R101 (their sentences): the length of an encoded frame, its range, and that `0xC0` stands at
its two ends only. -/
def Obligations.EncodedFrameShape : Prop :=
  ∀ (t : DataTable) (cap : Nat) (w : List Byte), frameEncode t cap = .ok w →
    w.length = 24 + t.content.length + (unescaped t).countP (fun b => b == 0xC0#8 || b == 0xDB#8) ∧
    24 ≤ w.length ∧ w.length ≤ 3046 ∧
    ∀ i : Nat, w[i]? = some 0xC0#8 ↔ i = 0 ∨ i = w.length - 1

/-- R171, R172, R181: `FRAME_DECODE`: `INVALID_PARAM` for a `SRC` longer than a fixed `MAX_SRC`; `FORMAT` when `SRC` is not two delimiters with
an interior; `ESCAPE` when the interior is the escape of nothing; else, for the unescaped `u`, `INCOMPLETE` below 22
bytes, `OVERSIZE` above the two bounds, `CRC` on a mismatch, and otherwise the parsed table. -/
def Obligations.FrameDecodeResult : Prop :=
  encode .frameDecode = 0x0021#16 ∧ RejectsData 0x21#8 ∧
  (∀ s : State, ¬ s.SrcFits →
    exec .frameDecode s = .next (s.after s.crcAcc s.escPend 1#4 ⟨.invalidParam, [], none, none⟩)) ∧
  (∀ s : State, s.SrcFits → (∀ m, s.operands.src ≠ [0xC0#8] ++ m ++ [0xC0#8]) →
    exec .frameDecode s = .next (s.after s.crcAcc s.escPend 3#4 ⟨.format, [], none, none⟩)) ∧
  (∀ (s : State) (m : List Byte), s.SrcFits → s.operands.src = [0xC0#8] ++ m ++ [0xC0#8] → (∀ u, escSeq u ≠ m) →
    exec .frameDecode s = .next (s.after s.crcAcc s.escPend 4#4 ⟨.escape, [], none, none⟩)) ∧
  ∀ (s : State) (u : List Byte), s.SrcFits → s.operands.src = [0xC0#8] ++ escSeq u ++ [0xC0#8] →
    exec .frameDecode s = .next (
      if u.length < 22 then s.after s.crcAcc s.escPend 5#4 ⟨.incomplete, [], none, none⟩
      else if 2048 < u.length ∨ 1500 < u.length - 22 then
        s.after s.crcAcc s.escPend 7#4 ⟨.oversize, [], none, none⟩
      else if crc16 (u.take (u.length - 2)) ≠ le16 (u.getD (u.length - 2) 0#8) (u.getD (u.length - 1) 0#8) then
        s.after s.crcAcc s.escPend 6#4 ⟨.crc, [], none, none⟩
      else s.after s.crcAcc s.escPend 0#4 ⟨.ok, [], none, some (parse (u.take (u.length - 2)))⟩)

/-- 42_frame.md, the sentence of R176: for every table with at most 1500 content bytes and every capacity that its frame fits, `FRAME_ENCODE`
returns a frame, and `FRAME_DECODE` of that frame, in any state that accepts it, returns the table. -/
def Obligations.FrameRoundTrip : Prop :=
  ∀ (s : State) (t : DataTable), s.operands.tbl = t → t.content.length ≤ 1500 →
    24 + t.content.length + (unescaped t).countP (fun b => b == 0xC0#8 || b == 0xDB#8) ≤ s.operands.cap →
    ∃ w, exec .frameEncode s = .next (s.after s.crcAcc s.escPend 0#4 ⟨.ok, w, none, none⟩) ∧
      ∀ s' : State, s'.operands.src = w → s'.SrcFits →
        exec .frameDecode s' = .next (s'.after s'.crcAcc s'.escPend 0#4 ⟨.ok, [], none, some t⟩)

/-- The decoder accepts exactly what the encoder produces: `frame_decode` answers a table for `w` exactly when `frame_encode` of that table,
with a capacity of 3046, is `w` (from 42_frame.md, Serializer and Deserializer). -/
def Obligations.DecoderAcceptsExactlyEncoded : Prop :=
  ∀ (w : List Byte) (t : DataTable), frameDecode w = .ok t ↔ frameEncode t 3046 = .ok w

/-- A frame in which one byte of header or content differs from what its CRC was computed over is answered with `CRC` (from 42_frame.md R171
and 40_crc.md R110). -/
def Obligations.CorruptedByteIsCrcError : Prop :=
  ∀ (p q : List Byte) (a b : Byte), a ≠ b → 20 ≤ (p ++ a :: q).length → (p ++ a :: q).length ≤ 1520 →
    frameDecode (enclose (p ++ b :: q ++ le2 (crc16 (p ++ a :: q)))) = .error .crc

/-- 70_reset_and_hazards.md, the sentences of R247: a capacity of 3046 encodes every table the encoder accepts, 2048 encodes every one with at
most 1001 content bytes, 2048 fails for 1013 to 1500 content bytes all equal to `0xC0`, and twice the length is
enough for `ESC_ENC_BLOCK`. -/
def Obligations.CapacityBounds : Prop :=
  (∀ t : DataTable, t.content.length ≤ 1500 → ∃ w, frameEncode t 3046 = .ok w) ∧
  (∀ t : DataTable, t.content.length ≤ 1001 → ∃ w, frameEncode t 2048 = .ok w) ∧
  (∀ t : DataTable, 1013 ≤ t.content.length → t.content.length ≤ 1500 → (∀ b ∈ t.content, b = 0xC0#8) →
    frameEncode t 2048 = .error .bufferSmall) ∧
  ∀ bs : List Byte, (escSeq bs).length ≤ 2 * bs.length

/-- 70_reset_and_hazards.md, the sentences of R249: of an accepted frame, two joined are `ESCAPE`, one with noise before it that does not begin
with a delimiter is `FORMAT`, and a fragment is `FORMAT`. -/
def Obligations.OneFramePerDecode : Prop :=
  (∀ (w w' : List Byte) (t t' : DataTable), frameDecode w = .ok t → frameDecode w' = .ok t' →
    frameDecode (w ++ w') = .error .escape) ∧
  (∀ (w : List Byte) (t : DataTable) (b : Byte) (noise : List Byte), frameDecode w = .ok t → b ≠ 0xC0#8 →
    frameDecode (b :: noise ++ w) = .error .format) ∧
  ∀ (w : List Byte) (t : DataTable) (before part rest : List Byte), frameDecode w = .ok t → w = before ++ part ++ rest →
    before ++ rest ≠ [] → frameDecode part = .error .format

/-- 42_frame.md, R175: on what the reassembler hands over, `FORMAT` never happens. -/
def Obligations.CandidateFrameIsNeverFormat : Prop :=
  ∀ w : List Byte, CandidateFrame w → frameDecode w ≠ .error .format

/-! ## Control commands -/

/-- R200: `SOFT_RESET`. -/
def Obligations.SoftResetResult : Prop :=
  encode .softReset = 0x00FF#16 ∧ RejectsData 0xFF#8 ∧
  ∀ s : State, exec .softReset s = .next (s.after 0xFFFF#16 0#1 0#4 ⟨.ok, [], none, none⟩)

/-- R201: `STAT_READ` returns `STATUS` and leaves it, with a response status of `OK`. -/
def Obligations.StatReadResult : Prop :=
  encode .statRead = 0x00F0#16 ∧ RejectsData 0xF0#8 ∧
  ∀ s : State, exec .statRead s = .next (s.after s.crcAcc s.escPend s.status
    ⟨.ok, [], some (BitVec.ofNat 16 s.status.toNat), none⟩)

/-! ## The whole block -/

/-- 60_exceptions.md, the sentence of R220: every step of every state completes, so every run does. -/
def Obligations.EveryRunCompletes : Prop :=
  ∀ (k : Nat) (s : State), ∃ t, run k s = .next t

/-- The reset state meets the invariant. -/
def Obligations.ResetMeetsInvariant : Prop := State.reset.Inv

/-- Every step keeps the invariant (10_state.md R35: codes 9 to 15 are never written; 60_exceptions.md R213: an error returns no data; 42_frame.md
R171: an oversize frame returns no table). -/
def Obligations.StepKeepsInvariant : Prop :=
  ∀ s t : State, s.Inv → step s = .next t → t.Inv

/-- R35: after every command except `STAT_READ`, `STATUS` holds that command's status, one of 0 to 8, a word rejected as `ILLEGAL_CMD`
included; `STAT_READ` leaves `STATUS` unchanged; power-on reset and `SOFT_RESET` set it to 0. One response is returned
for the transaction. -/
def Obligations.StatusHoldsLastStatus : Prop :=
  (∀ (s : State) (tr : Transaction) (rest : List HostEvent), s.script = .command tr :: rest →
    ∃ t r, step s = .next t ∧ t.script = rest ∧ t.responses = s.responses ++ [r] ∧ r.status.code.toNat ≤ 8 ∧
      t.status = (if tr.cw = 0x00F0#16 then s.status else r.status.code) ∧
      (tr.cw = 0x00FF#16 → t.status = 0#4)) ∧
  (∀ (s : State) (o : Option Transaction) (rest : List HostEvent), s.script = .powerOnReset o :: rest →
    ∃ t, step s = .next t ∧ t.status = 0#4) ∧
  State.reset.status = 0#4

/-- R213: a transaction that ends in an error returns no data, writes its code to `STATUS` and leaves `CRC_ACC`. After an error of
`ESC_DEC_BYTE` or `ESC_DEC_FLUSH`, `ESC_PEND` is 0; after any other, a rejected word's included, it is as before. -/
def Obligations.RaisingWritesOnlyStatus : Prop :=
  ∀ (s t : State) (tr : Transaction) (rest : List HostEvent) (r : Response),
    s.script = .command tr :: rest → step s = .next t → t.responses = s.responses ++ [r] → r.status ≠ .ok →
    r.out = [] ∧ r.val = none ∧ r.tbl = none ∧ t.status = r.status.code ∧ t.crcAcc = s.crcAcc ∧
    ((decode tr.cw = .ok .escDecFlush ∨ ∃ d, decode tr.cw = .ok (.escDecByte d)) → t.escPend = 0#1) ∧
    (decode tr.cw ≠ .ok .escDecFlush → (∀ d, decode tr.cw ≠ .ok (.escDecByte d)) → t.escPend = s.escPend)

/-- 10_state.md, the "written by" column of R31: which commands can change `CRC_ACC`, `ESC_PEND` and `STATUS`. Its last clause is
the model's own and no rule of the spec: the field `maxSrc`, which holds the open parameter `MAX_SRC`, is changed by no
command (DESIGN CHOICE, log 2). -/
def Obligations.RegisterWriters : Prop :=
  ∀ (i : Instr) (s t : State), exec i s = .next t →
    (t.crcAcc ≠ s.crcAcc → i = .crcInit ∨ (∃ d, i = .crcUpdate d) ∨ i = .crcBlock ∨ i = .softReset) ∧
    (t.escPend ≠ s.escPend → i = .escDecReset ∨ (∃ d, i = .escDecByte d) ∨ i = .escDecFlush ∨ i = .softReset) ∧
    (t.status ≠ s.status → i ≠ .statRead) ∧ t.maxSrc = s.maxSrc

/-- R150, R163: `ESC_ENC_BYTE`, `ESC_ENC_BLOCK`, `ESC_DEC_BLOCK`, `FRAME_ENCODE` and `FRAME_DECODE` neither read nor write `CRC_ACC` or `ESC_PEND`:
the response depends on the operands alone, and only `STATUS` is written. -/
def Obligations.PureCommandsUseOperandsOnly : Prop :=
  ∀ (i : Instr), (i = .escEncBlock ∨ (∃ d, i = .escEncByte d) ∨ i = .escDecBlock ∨ i = .frameEncode ∨ i = .frameDecode) →
    ∀ s₁ s₂ : State, s₁.operands = s₂.operands → s₁.maxSrc = s₂.maxSrc →
      ∃ r, exec i s₁ = .next (s₁.after s₁.crcAcc s₁.escPend r.status.code r) ∧
        exec i s₂ = .next (s₂.after s₂.crcAcc s₂.escPend r.status.code r)

/-- 30_encoding.md R71, R73 (operands read): two states with the same registers answer alike when they agree on the operands the command's row
names; what else is on the port makes no difference. -/
def Obligations.UnnamedOperandsAreIgnored : Prop :=
  ∀ (i : Instr) (s₁ s₂ : State), s₁.crcAcc = s₂.crcAcc → s₁.escPend = s₂.escPend → s₁.status = s₂.status →
    s₁.maxSrc = s₂.maxSrc →
    (i ∈ [Instr.crcBlock, .escEncBlock, .escDecBlock, .frameDecode] → s₁.operands.src = s₂.operands.src) →
    (i ∈ [Instr.escEncBlock, .escDecBlock, .frameEncode] → s₁.operands.cap = s₂.operands.cap) →
    (i = .frameEncode → s₁.operands.tbl = s₂.operands.tbl) →
    ∃ c p q r, exec i s₁ = .next (s₁.after c p q r) ∧ exec i s₂ = .next (s₂.after c p q r)

/-- 20_memory.md R63: the commands run in the order issued, each returns one response, and the responses come back in that order: a run over
two parts of a script is the run over the first and then over the second. -/
def Obligations.OneResponsePerCommandInOrder : Prop :=
  ∀ (ts ts' : List Transaction) (s : State) (rest : List HostEvent), s.script = commands (ts ++ ts') ++ rest →
    ∃ t rs u rs', run ts.length s = .next t ∧ rs.length = ts.length ∧
      t.responses = s.responses ++ rs ∧ t.script = commands ts' ++ rest ∧
      run ts'.length t = .next u ∧ rs'.length = ts'.length ∧
      u.responses = s.responses ++ rs ++ rs' ∧ u.script = rest ∧
      run (ts.length + ts'.length) s = .next u

/-- 20_memory.md, the sentences of R61: issuing `CRC_INIT`, `ESC_DEC_RESET` or `SOFT_RESET` a second time leaves the registers as the first did, and
issuing `CRC_READ` or `STAT_READ` twice returns the same value twice. -/
def Obligations.IdempotentCommands : Prop :=
  (∀ i ∈ [Instr.crcInit, .escDecReset, .softReset], ∀ s : State, ∃ t u, exec i s = .next t ∧ exec i t = .next u ∧
    u.crcAcc = t.crcAcc ∧ u.escPend = t.escPend ∧ u.status = t.status) ∧
  ∀ i ∈ [Instr.crcRead, .statRead], ∀ s : State, ∃ t u r, exec i s = .next t ∧ exec i t = .next u ∧
    t.responses = s.responses ++ [r] ∧ u.responses = s.responses ++ [r, r] ∧ u.crcAcc = s.crcAcc ∧ u.escPend = s.escPend

/-! ## Host-side text -/

/-- 30_encoding.md R79 (its expansion column). -/
def Obligations.PseudoExpansions : Prop :=
  (∀ bs : List Byte, (Pseudo.crcSeq bs).expand = [.crcInit] ++ bs.map .crcUpdate ∧
    (Pseudo.escEncSeq bs).expand = bs.map .escEncByte ∧
    (Pseudo.escDecSeq bs).expand = [.escDecReset] ++ bs.map .escDecByte ++ [.escDecFlush]) ∧
  (Pseudo.crcSeq []).expand = [.crcInit] ∧ (Pseudo.escEncSeq []).expand = [] ∧
  (Pseudo.escDecSeq []).expand = [.escDecReset, .escDecFlush]

/-- 30_encoding.md R78: its examples assemble to their words and the operands written, and a byte operand of 256 is an assembly
error. The operands a command does not read, which R71 leaves open, are those of the empty bundle: the model's choice
(DESIGN CHOICE, log 7). The `ESC_ENC_BLOCK` line is R78's example with a comment added; that the blank before the `;` is
dropped is also the model's choice (DESIGN CHOICE, log 11). -/
def Obligations.AssemblerExamples : Prop :=
  Asm.assembleLine [] "CRC_UPDATE 0x01".toList = .ok (some { cw := 0x0102#16, ops := OperandBundle.empty }) ∧
  Asm.assembleLine [] "CRC_BLOCK src=[01 04 02 FF FF]".toList = .ok (some
    { cw := 0x0004#16, ops := { OperandBundle.empty with src := [0x01#8, 0x04#8, 0x02#8, 0xFF#8, 0xFF#8] } }) ∧
  Asm.assembleLine [] "ESC_ENC_BLOCK src=[C0 11], cap=4 ; two bytes".toList = .ok (some
    { cw := 0x0011#16, ops := { OperandBundle.empty with src := [0xC0#8, 0x11#8], cap := 4 } }) ∧
  (∀ t : DataTable, Asm.assembleLine [("T1".toList, t)] "FRAME_ENCODE tbl=T1, cap=3046".toList = .ok (some
    { cw := 0x0020#16, ops := { OperandBundle.empty with tbl := t, cap := 3046 } })) ∧
  Asm.assembleLine [] "CRC_UPDATE 255".toList = .ok (some { cw := 0xFF02#16, ops := OperandBundle.empty }) ∧
  Asm.assembleLine [] "CRC_UPDATE 256".toList = .error .byteRange
end

