-- ==== Sys2Proof/Laws/Bytes.lean ====
section
/-!
SUPPORT. Byte order: taking a value apart into octets and putting it together again (00_scope.md R12, 42_frame.md R161, R162),
sub-sequences, and the lengths of serialized parts.
-/
namespace Sys2Proof.Machine

/-- Two octets of a 16-bit value make the value again (R12). -/
@[simp] theorem le16_lo8_hi8 (v : Word16) : le16 (lo8 v) (hi8 v) = v := by
  ext i hi
  simp only [le16, zext16, lo8, hi8]
  rcases Nat.lt_or_ge i 8 with h | h
  · simp [BitVec.getElem_or, BitVec.getElem_shiftLeft, BitVec.getElem_setWidth, BitVec.getLsbD_extractLsb', h, hi]
  · have h8 : i - 8 < 8 := by omega
    simp [BitVec.getElem_or, BitVec.getElem_shiftLeft, BitVec.getElem_setWidth, BitVec.getLsbD_extractLsb', hi,
      Nat.not_lt.2 h, h8, Nat.add_sub_cancel' h]

/-- Three octets of a 24-bit value make the value again (R12). -/
@[simp] theorem le24_octets (v : Word24) :
    le24 (v.extractLsb' 0 8) (v.extractLsb' 8 8) (v.extractLsb' 16 8) = v := by
  ext i hi
  simp only [le24]
  rcases Nat.lt_or_ge i 8 with h | h
  · have h16 : i < 16 := by omega
    simp [BitVec.getElem_or, BitVec.getElem_shiftLeft, BitVec.getElem_setWidth, BitVec.getLsbD_extractLsb', h, h16, hi]
  · rcases Nat.lt_or_ge i 16 with h' | h'
    · have h8 : i - 8 < 8 := by omega
      simp [BitVec.getElem_or, BitVec.getElem_shiftLeft, BitVec.getElem_setWidth, BitVec.getLsbD_extractLsb', hi,
        Nat.not_lt.2 h, h', h8, Nat.add_sub_cancel' h]
    · have h8 : ¬ i - 8 < 8 := by omega
      have h16 : i - 16 < 8 := by omega
      simp [BitVec.getElem_or, BitVec.getElem_shiftLeft, BitVec.getElem_setWidth, BitVec.getLsbD_extractLsb', hi,
        Nat.not_lt.2 h, Nat.not_lt.2 h', h8, h16, Nat.add_sub_cancel' h']

@[simp] theorem le2_length (v : Word16) : (le2 v).length = 2 := rfl
@[simp] theorem le3_length (v : Word24) : (le3 v).length = 3 := rfl
@[simp] theorem serDevice_length (x : DeviceId) : (serDevice x).length = 7 := rfl

/-- R161: a serialized table has 20 octets and the content. -/
@[simp] theorem ser_length (t : DataTable) : (ser t).length = 20 + t.content.length := by
  simp [ser]
  omega

/-- R160 step 3: the CRC adds two octets. -/
@[simp] theorem withCrc_length (h : List Byte) : (withCrc h).length = h.length + 2 := by
  simp [withCrc]

/-- A sub-sequence that starts at 0 is a prefix (R11). -/
@[simp] theorem slice_zero (s : List Byte) (j : Nat) : slice s 0 j = s.take (j + 1) := rfl

/-- The sub-sequence without the first and the last byte of a sequence that has both (R11, R171). -/
theorem slice_interior (a b : Byte) (m : List Byte) :
    slice ([a] ++ m ++ [b]) 1 (([a] ++ m ++ [b]).length - 2) = m := by
  simp [slice]

end Sys2Proof.Machine
end

