-- ==== Sys2Proof/Laws/Crc.lean ====
section
/-!
SUPPORT. Equations of the CRC of a sequence (40_crc.md R111) and a form of it that the kernel evaluates on long sequences: it settles
the accumulator to a number after every byte.
-/
namespace Sys2Proof.Machine

/-- R111: the CRC is the fold from the initial value; the final xor is zero. -/
theorem crc16_eq_foldl (s : List Byte) : crc16 s = s.foldl crcStep 0xFFFF#16 := by
  simp [crc16, crcXorOut, crcInitVal]

@[simp] theorem crc16_nil : crc16 [] = 0xFFFF#16 := rfl

/-- Appending bytes continues the fold. -/
theorem crc16_append (s t : List Byte) : crc16 (s ++ t) = t.foldl crcStep (crc16 s) := by
  simp [crc16_eq_foldl]

/-- `k n`, reached through a match on `n`, so that evaluation settles `n` first. -/
def settled {α : Type} (n : Nat) (k : Nat → α) : α :=
  match n with
  | 0 => k 0
  | m + 1 => k (m + 1)

@[simp] theorem settled_eq {α : Type} (n : Nat) (k : Nat → α) : settled n k = k n := by
  cases n <;> rfl

/-- The fold of R111 with the accumulator settled after every byte. -/
def crcFold (c : Word16) : List Byte → Word16
  | [] => c
  | d :: s => settled (crcStep c d).toNat fun n => crcFold (BitVec.ofNat 16 n) s

/-- Both folds agree. -/
theorem crcFold_eq (c : Word16) (s : List Byte) : crcFold c s = s.foldl crcStep c := by
  induction s generalizing c with
  | nil => rfl
  | cons d s ih => simp [crcFold, ih]

end Sys2Proof.Machine
end

