-- ==== Sys2Proof/Laws/Decode.lean ====
section
/-!
SUPPORT. The fields of a command word (30_encoding.md R70): taking them out of a word put together from them.
-/
namespace Sys2Proof

/-- `OPC` of a word is what was put there. -/
@[simp] theorem cwOpc_cwOf (data opc : Byte) : cwOpc (cwOf data opc) = opc := by
  ext i hi
  simp [cwOpc, cwOf, hi]
  omega

/-- `DATA` of a word is what was put there. -/
@[simp] theorem cwData_cwOf (data opc : Byte) : cwData (cwOf data opc) = data := by
  ext i hi
  simp [cwData, cwOf, hi, show 8 + i < 16 by omega]

/-- A word is its two fields (R70). -/
@[simp] theorem cwOf_fields (w : Word16) : cwOf (cwData w) (cwOpc w) = w := by
  ext i hi
  rcases Nat.lt_or_ge i 8 with h | h
  · simp [cwData, cwOpc, cwOf, BitVec.getElem_or, BitVec.getElem_shiftLeft, BitVec.getElem_setWidth,
      BitVec.getLsbD_extractLsb', h, hi]
  · simp [cwData, cwOpc, cwOf, BitVec.getElem_or, BitVec.getElem_shiftLeft, BitVec.getElem_setWidth,
      BitVec.getLsbD_extractLsb', hi, Nat.not_lt.2 h, show i - 8 < 8 by omega, Nat.add_sub_cancel' h]

/-- A 16-bit value is its own table word. -/
@[simp] theorem tableWord_toNat (w : Word16) : tableWord 16 w.toNat = w := by
  have h : w.toNat % 2 ^ 16 = w.toNat := Nat.mod_eq_of_lt w.isLt
  rw [tableWord, h]
  exact BitVec.eq_of_toNat_eq (by rw [BitVec.toNat_ofNat, h])

/-- Everything the opcode map can answer (R73, R76): nothing for an opcode outside it, else the command whose word has that
opcode. -/
theorem opcodeRow_cases (opc : Byte) :
    (opcodeRow opc = none ∧ opc ∉ [0x01#8, 0x02#8, 0x03#8, 0x04#8, 0x10#8, 0x11#8, 0x18#8, 0x19#8, 0x1A#8, 0x1B#8, 0x20#8,
      0x21#8, 0xF0#8, 0xFF#8]) ∨
    (∃ i, opcodeRow opc = some (.cwN i) ∧ encode i = cwOf 0x00#8 opc ∧
      opc ∈ [0x01#8, 0x03#8, 0x04#8, 0x11#8, 0x18#8, 0x1A#8, 0x1B#8, 0x20#8, 0x21#8, 0xF0#8, 0xFF#8]) ∨
    (∃ f, opcodeRow opc = some (.cwD f) ∧ (∀ d, encode (f d) = cwOf d opc) ∧ opc ∈ [0x02#8, 0x10#8, 0x19#8]) := by
  by_cases h : opc ∈ [0x01#8, 0x02#8, 0x03#8, 0x04#8, 0x10#8, 0x11#8, 0x18#8, 0x19#8, 0x1A#8, 0x1B#8, 0x20#8,
      0x21#8, 0xF0#8, 0xFF#8]
  · right
    simp only [List.mem_cons, List.not_mem_nil, or_false] at h
    rcases h with h | h | h | h | h | h | h | h | h | h | h | h | h | h <;> subst h <;>
      first
      | exact .inl ⟨_, rfl, rfl, by decide⟩
      | exact .inr ⟨_, rfl, fun _ => rfl, by decide⟩
  · left
    refine ⟨?_, h⟩
    simp only [List.mem_cons, List.not_mem_nil, or_false, not_or] at h
    simp [opcodeRow, h]

end Sys2Proof
end

