-- ==== Sys2Proof/Laws/Escape.lean ====
section
/-!
SUPPORT. The equations of the escape transform, one per case of 41_escape.md R130 to R132, so that no proof unfolds it.
-/
namespace Sys2Proof.Machine

@[simp] theorem escSeq_nil : escSeq [] = [] := rfl

@[simp] theorem escSeq_cons (b : Byte) (s : List Byte) : escSeq (b :: s) = escByte b ++ escSeq s := rfl

@[simp] theorem escSeq_append (s t : List Byte) : escSeq (s ++ t) = escSeq s ++ escSeq t := by
  simp [escSeq]

@[simp] theorem unescSeq_nil : unescSeq [] = .ok [] := rfl

/-- A raw delimiter (R132, D10). -/
@[simp] theorem unescSeq_delim (s : List Byte) : unescSeq (delim :: s) = .error .escape := by
  rw [unescSeq.eq_def]
  simp

/-- A trailing `0xDB` (R132). -/
@[simp] theorem unescSeq_trailing : unescSeq [esc] = .error .escape := rfl

/-- `0xDB 0xDC` is `0xC0` (R132). -/
@[simp] theorem unescSeq_escEnd (s : List Byte) : unescSeq (esc :: escEnd :: s) = (unescSeq s).map (delim :: ·) := by
  rw [unescSeq.eq_def]
  simp [show esc ≠ delim by decide]

/-- `0xDB 0xDD` is `0xDB` (R132). -/
@[simp] theorem unescSeq_escEsc (s : List Byte) : unescSeq (esc :: escEsc :: s) = (unescSeq s).map (esc :: ·) := by
  rw [unescSeq.eq_def]
  simp [show esc ≠ delim by decide, show escEsc ≠ escEnd by decide]

/-- `0xDB` before any other byte (R132). -/
theorem unescSeq_bad (n : Byte) (s : List Byte) (h1 : n ≠ escEnd) (h2 : n ≠ escEsc) :
    unescSeq (esc :: n :: s) = .error .escape := by
  rw [unescSeq.eq_def]
  simp [show esc ≠ delim by decide, h1, h2]

/-- Every other byte passes through (R132). -/
theorem unescSeq_plain (b : Byte) (s : List Byte) (h1 : b ≠ delim) (h2 : b ≠ esc) :
    unescSeq (b :: s) = (unescSeq s).map (b :: ·) := by
  rw [unescSeq.eq_def]
  simp [h1, h2]

/-- A mapped answer is an error exactly when the answer is that error. -/
theorem map_eq_error {α β : Type} (f : α → β) (r : Except Status α) (e : Status) : r.map f = .error e ↔ r = .error e := by
  cases r <;> simp [Except.map]

/-- The only error of unescape is `ESCAPE` (R132). -/
theorem unescSeq_error (w : List Byte) (e : Status) (h : unescSeq w = .error e) : e = .escape := by
  fun_induction unescSeq w <;> simp_all [map_eq_error]

end Sys2Proof.Machine
end

