-- ==== Sys2Proof/Laws/Frame.lean ====
section
/-!
SUPPORT. Frame encode and decode with the numbers of 42_frame.md written in, so that no proof unfolds the constants.
-/
namespace Sys2Proof.Machine

/-- R171, steps 3 to 5, with its numbers. -/
theorem decodeUnescaped_eq (u : List Byte) :
    decodeUnescaped u =
      if u.length < 22 then .error .incomplete
      else if 2048 < u.length ∨ 1500 < u.length - 22 then .error .oversize
      else if crc16 (u.take (u.length - 3 + 1)) ≠ le16 (u.getD (u.length - 2) 0#8) (u.getD (u.length - 1) 0#8) then
        .error .crc
      else .ok (parse (u.take (u.length - 3 + 1))) := rfl

/-- R160, with its numbers. -/
theorem frameEncode_eq (t : DataTable) (cap : Nat) :
    frameEncode t cap =
      if 1500 < t.content.length then .error .invalidParam else fitCap cap ([0xC0#8] ++ escSeq (unescaped t) ++ [0xC0#8]) :=
  rfl

/-- R171, step 1, on a sequence between two delimiters. -/
theorem frameDecode_enclosed (m : List Byte) :
    frameDecode ([delim] ++ m ++ [delim]) = (unescSeq m).bind decodeUnescaped := by
  have hlast : byteAt ([delim] ++ m ++ [delim]) (([delim] ++ m ++ [delim]).length - 1) = delim := by
    simp [byteAt]
  unfold frameDecode
  rw [if_neg (by simp), if_neg (by simp [byteAt]), if_neg (by simpa using hlast), slice_interior]

/-- The errors of frame encode (R160). -/
theorem frameEncode_error {t : DataTable} {cap : Nat} {e : Status} (h : frameEncode t cap = .error e) :
    e = .invalidParam ∨ e = .bufferSmall := by
  unfold frameEncode fitCap at h
  split_ifs at h <;> cases h <;> simp

/-- The errors of frame decode on an unescaped sequence (R171, steps 3 and 4). -/
theorem decodeUnescaped_error {u : List Byte} {e : Status} (h : decodeUnescaped u = .error e) :
    e = .incomplete ∨ e = .oversize ∨ e = .crc := by
  unfold decodeUnescaped at h
  split_ifs at h <;> cases h <;> simp

/-- The errors of frame decode (R171). -/
theorem frameDecode_error {w : List Byte} {e : Status} (h : frameDecode w = .error e) :
    e = .format ∨ e = .escape ∨ e = .incomplete ∨ e = .oversize ∨ e = .crc := by
  unfold frameDecode at h
  split_ifs at h
  · exact .inl (Except.error.inj h).symm
  · exact .inl (Except.error.inj h).symm
  · exact .inl (Except.error.inj h).symm
  · rcases hu : unescSeq (slice w 1 (w.length - 2)) with x | x <;> rw [hu] at h
    · exact .inr (.inl ((Except.error.inj h).symm.trans (unescSeq_error _ _ hu)))
    · exact .inr (.inr (decodeUnescaped_error h))

end Sys2Proof.Machine
end

