-- ==== Sys2Proof/Laws/State.lean ====
section
/-!
SUPPORT. One lemma per field of State for every update of Machine/Ops.lean, Machine/Fetch.lean and Safety.lean, and the same for the
fields of a response, so that no proof unfolds a record update.
-/
namespace Sys2Proof.Machine

@[simp] theorem State.setCrcAcc_crcAcc (s : State) (v : Word16) :
    (s.setCrcAcc v).crcAcc = v := rfl
@[simp] theorem State.setCrcAcc_escPend (s : State) (v : Word16) :
    (s.setCrcAcc v).escPend = s.escPend := rfl
@[simp] theorem State.setCrcAcc_status (s : State) (v : Word16) :
    (s.setCrcAcc v).status = s.status := rfl
@[simp] theorem State.setCrcAcc_maxSrc (s : State) (v : Word16) :
    (s.setCrcAcc v).maxSrc = s.maxSrc := rfl
@[simp] theorem State.setCrcAcc_script (s : State) (v : Word16) :
    (s.setCrcAcc v).script = s.script := rfl
@[simp] theorem State.setCrcAcc_responses (s : State) (v : Word16) :
    (s.setCrcAcc v).responses = s.responses := rfl

@[simp] theorem State.setEscPend_crcAcc (s : State) (b : BitVec 1) :
    (s.setEscPend b).crcAcc = s.crcAcc := rfl
@[simp] theorem State.setEscPend_escPend (s : State) (b : BitVec 1) :
    (s.setEscPend b).escPend = b := rfl
@[simp] theorem State.setEscPend_status (s : State) (b : BitVec 1) :
    (s.setEscPend b).status = s.status := rfl
@[simp] theorem State.setEscPend_maxSrc (s : State) (b : BitVec 1) :
    (s.setEscPend b).maxSrc = s.maxSrc := rfl
@[simp] theorem State.setEscPend_script (s : State) (b : BitVec 1) :
    (s.setEscPend b).script = s.script := rfl
@[simp] theorem State.setEscPend_responses (s : State) (b : BitVec 1) :
    (s.setEscPend b).responses = s.responses := rfl

@[simp] theorem State.setStatus_crcAcc (s : State) (e : Status) :
    (s.setStatus e).crcAcc = s.crcAcc := rfl
@[simp] theorem State.setStatus_escPend (s : State) (e : Status) :
    (s.setStatus e).escPend = s.escPend := rfl
@[simp] theorem State.setStatus_status (s : State) (e : Status) :
    (s.setStatus e).status = e.code := rfl
@[simp] theorem State.setStatus_maxSrc (s : State) (e : Status) :
    (s.setStatus e).maxSrc = s.maxSrc := rfl
@[simp] theorem State.setStatus_script (s : State) (e : Status) :
    (s.setStatus e).script = s.script := rfl
@[simp] theorem State.setStatus_responses (s : State) (e : Status) :
    (s.setStatus e).responses = s.responses := rfl

@[simp] theorem State.resetRegisters_crcAcc (s : State) :
    (s.resetRegisters).crcAcc = crcInitVal := rfl
@[simp] theorem State.resetRegisters_escPend (s : State) :
    (s.resetRegisters).escPend = 0#1 := rfl
@[simp] theorem State.resetRegisters_status (s : State) :
    (s.resetRegisters).status = 0#4 := rfl
@[simp] theorem State.resetRegisters_maxSrc (s : State) :
    (s.resetRegisters).maxSrc = s.maxSrc := rfl
@[simp] theorem State.resetRegisters_script (s : State) :
    (s.resetRegisters).script = s.script := rfl
@[simp] theorem State.resetRegisters_responses (s : State) :
    (s.resetRegisters).responses = s.responses := rfl

@[simp] theorem State.respond_crcAcc (s : State) (r : Response) :
    (s.respond r).crcAcc = s.crcAcc := rfl
@[simp] theorem State.respond_escPend (s : State) (r : Response) :
    (s.respond r).escPend = s.escPend := rfl
@[simp] theorem State.respond_status (s : State) (r : Response) :
    (s.respond r).status = s.status := rfl
@[simp] theorem State.respond_maxSrc (s : State) (r : Response) :
    (s.respond r).maxSrc = s.maxSrc := rfl
@[simp] theorem State.respond_script (s : State) (r : Response) :
    (s.respond r).script = s.script.tail := rfl
@[simp] theorem State.respond_responses (s : State) (r : Response) :
    (s.respond r).responses = s.responses ++ [r] := rfl

@[simp] theorem State.complete_crcAcc (s : State) (r : Response) :
    (s.complete r).crcAcc = s.crcAcc := rfl
@[simp] theorem State.complete_escPend (s : State) (r : Response) :
    (s.complete r).escPend = s.escPend := rfl
@[simp] theorem State.complete_status (s : State) (r : Response) :
    (s.complete r).status = r.status.code := rfl
@[simp] theorem State.complete_maxSrc (s : State) (r : Response) :
    (s.complete r).maxSrc = s.maxSrc := rfl
@[simp] theorem State.complete_script (s : State) (r : Response) :
    (s.complete r).script = s.script.tail := rfl
@[simp] theorem State.complete_responses (s : State) (r : Response) :
    (s.complete r).responses = s.responses ++ [r] := rfl

@[simp] theorem State.raise_crcAcc (s : State) (e : Status) :
    (s.raise e).crcAcc = s.crcAcc := rfl
@[simp] theorem State.raise_escPend (s : State) (e : Status) :
    (s.raise e).escPend = s.escPend := rfl
@[simp] theorem State.raise_status (s : State) (e : Status) :
    (s.raise e).status = e.code := rfl
@[simp] theorem State.raise_maxSrc (s : State) (e : Status) :
    (s.raise e).maxSrc = s.maxSrc := rfl
@[simp] theorem State.raise_script (s : State) (e : Status) :
    (s.raise e).script = s.script.tail := rfl
@[simp] theorem State.raise_responses (s : State) (e : Status) :
    (s.raise e).responses = s.responses ++ [Response.error e] := rfl

@[simp] theorem State.illegalCommand_crcAcc (s : State) :
    (s.illegalCommand).crcAcc = s.crcAcc := rfl
@[simp] theorem State.illegalCommand_escPend (s : State) :
    (s.illegalCommand).escPend = s.escPend := rfl
@[simp] theorem State.illegalCommand_status (s : State) :
    (s.illegalCommand).status = 8#4 := rfl
@[simp] theorem State.illegalCommand_maxSrc (s : State) :
    (s.illegalCommand).maxSrc = s.maxSrc := rfl
@[simp] theorem State.illegalCommand_script (s : State) :
    (s.illegalCommand).script = s.script.tail := rfl
@[simp] theorem State.illegalCommand_responses (s : State) :
    (s.illegalCommand).responses = s.responses ++ [Response.error .illegalCmd] := rfl

@[simp] theorem State.powerOn_crcAcc (s : State) :
    (s.powerOn).crcAcc = crcInitVal := rfl
@[simp] theorem State.powerOn_escPend (s : State) :
    (s.powerOn).escPend = 0#1 := rfl
@[simp] theorem State.powerOn_status (s : State) :
    (s.powerOn).status = 0#4 := rfl
@[simp] theorem State.powerOn_maxSrc (s : State) :
    (s.powerOn).maxSrc = s.maxSrc := rfl
@[simp] theorem State.powerOn_script (s : State) :
    (s.powerOn).script = s.script.tail := rfl
@[simp] theorem State.powerOn_responses (s : State) :
    (s.powerOn).responses = s.responses := rfl

@[simp] theorem State.placeWord_crcAcc (s : State) (w : Word16) :
    (s.placeWord w).crcAcc = s.crcAcc := rfl
@[simp] theorem State.placeWord_escPend (s : State) (w : Word16) :
    (s.placeWord w).escPend = s.escPend := rfl
@[simp] theorem State.placeWord_status (s : State) (w : Word16) :
    (s.placeWord w).status = s.status := rfl
@[simp] theorem State.placeWord_maxSrc (s : State) (w : Word16) :
    (s.placeWord w).maxSrc = s.maxSrc := rfl
@[simp] theorem State.placeWord_script (s : State) (w : Word16) :
    (s.placeWord w).script = .command (Transaction.mk w s.operands) :: s.script.tail := rfl
@[simp] theorem State.placeWord_responses (s : State) (w : Word16) :
    (s.placeWord w).responses = s.responses := rfl

@[simp] theorem State.after_crcAcc (s : State) (c : Word16) (p : BitVec 1) (q : BitVec 4) (r : Response) :
    (s.after c p q r).crcAcc = c := rfl
@[simp] theorem State.after_escPend (s : State) (c : Word16) (p : BitVec 1) (q : BitVec 4) (r : Response) :
    (s.after c p q r).escPend = p := rfl
@[simp] theorem State.after_status (s : State) (c : Word16) (p : BitVec 1) (q : BitVec 4) (r : Response) :
    (s.after c p q r).status = q := rfl
@[simp] theorem State.after_maxSrc (s : State) (c : Word16) (p : BitVec 1) (q : BitVec 4) (r : Response) :
    (s.after c p q r).maxSrc = s.maxSrc := rfl
@[simp] theorem State.after_script (s : State) (c : Word16) (p : BitVec 1) (q : BitVec 4) (r : Response) :
    (s.after c p q r).script = s.script.tail := rfl
@[simp] theorem State.after_responses (s : State) (c : Word16) (p : BitVec 1) (q : BitVec 4) (r : Response) :
    (s.after c p q r).responses = s.responses ++ [r] := rfl

@[simp] theorem Response.done_status : Response.done.status = .ok := rfl
@[simp] theorem Response.done_out : Response.done.out = [] := rfl
@[simp] theorem Response.done_val : Response.done.val = none := rfl
@[simp] theorem Response.done_tbl : Response.done.tbl = none := rfl

@[simp] theorem Response.ofOut_status (w : List Byte) : (Response.ofOut w).status = .ok := rfl
@[simp] theorem Response.ofOut_out (w : List Byte) : (Response.ofOut w).out = w := rfl
@[simp] theorem Response.ofOut_val (w : List Byte) : (Response.ofOut w).val = none := rfl
@[simp] theorem Response.ofOut_tbl (w : List Byte) : (Response.ofOut w).tbl = none := rfl

@[simp] theorem Response.ofVal_status (v : Word16) : (Response.ofVal v).status = .ok := rfl
@[simp] theorem Response.ofVal_out (v : Word16) : (Response.ofVal v).out = [] := rfl
@[simp] theorem Response.ofVal_val (v : Word16) : (Response.ofVal v).val = some v := rfl
@[simp] theorem Response.ofVal_tbl (v : Word16) : (Response.ofVal v).tbl = none := rfl

@[simp] theorem Response.ofTbl_status (t : DataTable) : (Response.ofTbl t).status = .ok := rfl
@[simp] theorem Response.ofTbl_out (t : DataTable) : (Response.ofTbl t).out = [] := rfl
@[simp] theorem Response.ofTbl_val (t : DataTable) : (Response.ofTbl t).val = none := rfl
@[simp] theorem Response.ofTbl_tbl (t : DataTable) : (Response.ofTbl t).tbl = some t := rfl

@[simp] theorem Response.error_status (e : Status) : (Response.error e).status = e := rfl
@[simp] theorem Response.error_out (e : Status) : (Response.error e).out = [] := rfl
@[simp] theorem Response.error_val (e : Status) : (Response.error e).val = none := rfl
@[simp] theorem Response.error_tbl (e : Status) : (Response.error e).tbl = none := rfl

@[simp] theorem State.setCrcAcc_operands (s : State) (v : Word16) : (s.setCrcAcc v).operands = s.operands := rfl
@[simp] theorem State.setEscPend_operands (s : State) (b : BitVec 1) : (s.setEscPend b).operands = s.operands := rfl
@[simp] theorem State.setStatus_operands (s : State) (e : Status) : (s.setStatus e).operands = s.operands := rfl
@[simp] theorem State.resetRegisters_operands (s : State) : s.resetRegisters.operands = s.operands := rfl

/-- The word on the port after `placeWord` comes with the operands that were there. -/
@[simp] theorem State.placeWord_operands (s : State) (w : Word16) : (s.placeWord w).operands = s.operands := rfl

/-- The operands are those of the command on the port (R71). -/
theorem State.operands_of_command (s : State) (t : Transaction) (rest : List HostEvent)
    (h : s.script = .command t :: rest) : s.operands = t.ops := by
  simp [State.operands, h]

/-- Two states with equal fields are equal. -/
theorem State.ext_fields (s t : State) (h1 : s.crcAcc = t.crcAcc) (h2 : s.escPend = t.escPend) (h3 : s.status = t.status)
    (h4 : s.maxSrc = t.maxSrc) (h5 : s.script = t.script) (h6 : s.responses = t.responses) : s = t := by
  cases s
  cases t
  simp_all

/-- `complete` as the whole state it leaves. -/
theorem State.complete_eq_after (s : State) (r : Response) :
    s.complete r = s.after s.crcAcc s.escPend r.status.code r := rfl

/-- `raise` as the whole state it leaves (R213). -/
theorem State.raise_eq_after (s : State) (e : Status) :
    s.raise e = s.after s.crcAcc s.escPend e.code (Response.error e) := rfl

/-- `respond` as the whole state it leaves. -/
theorem State.respond_eq_after (s : State) (r : Response) :
    s.respond r = s.after s.crcAcc s.escPend s.status r := rfl

end Sys2Proof.Machine
end

