-- ==== Sys2Proof/Laws/Ops.lean ====
section
/-!
SUPPORT. For each shared operation, once, everything it can do. Proofs cite these instead of unfolding the operation.
-/
namespace Sys2Proof.Machine

/-- `srcLengthOk` is `SrcFits` of Safety.lean (R8, R74). -/
theorem srcLengthOk_iff (s : State) : srcLengthOk s.maxSrc s.operands.src = true ↔ s.SrcFits := by
  unfold srcLengthOk State.SrcFits
  cases s.maxSrc <;> simp

/-- `readSrc` gives `SRC` when it fits. -/
theorem State.readSrc_fits (s : State) (h : s.SrcFits) : s.readSrc = .ok s.operands.src := by
  simp [State.readSrc, (srcLengthOk_iff s).2 h]

/-- `readSrc` raises `INVALID_PARAM` when `SRC` is too long. -/
theorem State.readSrc_too_long (s : State) (h : ¬ s.SrcFits) : s.readSrc = .error .invalidParam := by
  have h' : ¬ srcLengthOk s.maxSrc s.operands.src = true := fun c => h ((srcLengthOk_iff s).1 c)
  simp [State.readSrc, h']

/-- Everything `readSrc` can answer. -/
theorem State.readSrc_cases (s : State) :
    (s.SrcFits ∧ s.readSrc = .ok s.operands.src) ∨ (¬ s.SrcFits ∧ s.readSrc = .error .invalidParam) := by
  by_cases h : s.SrcFits
  · exact .inl ⟨h, s.readSrc_fits h⟩
  · exact .inr ⟨h, s.readSrc_too_long h⟩

/-- An unbounded `MAX_SRC` accepts every `SRC` (R8). -/
theorem State.srcFits_of_unbounded (s : State) (h : s.maxSrc = none) : s.SrcFits := by
  intro m hm
  simp [h] at hm

/-- `fitCap` gives the output when it fits; the check is exact (R141). -/
theorem fitCap_fits {cap : Nat} {w : List Byte} (h : w.length ≤ cap) : fitCap cap w = .ok w := by
  simp [fitCap, Nat.not_lt.2 h]

/-- `fitCap` raises `BUFFER_SMALL` when the output is longer than `CAP`. -/
theorem fitCap_small {cap : Nat} {w : List Byte} (h : cap < w.length) : fitCap cap w = .error .bufferSmall := by
  simp [fitCap, h]

/-- Everything `fitCap` can answer. -/
theorem fitCap_cases (cap : Nat) (w : List Byte) :
    (w.length ≤ cap ∧ fitCap cap w = .ok w) ∨ (cap < w.length ∧ fitCap cap w = .error .bufferSmall) := by
  rcases Nat.lt_or_ge cap w.length with h | h
  · exact .inr ⟨h, fitCap_small h⟩
  · exact .inl ⟨h, fitCap_fits h⟩

/-- `answer` of a value completes with its response. -/
@[simp] theorem State.answer_ok {α : Type} (s : State) (x : α) (f : α → Response) :
    s.answer (.ok x) f = s.after s.crcAcc s.escPend (f x).status.code (f x) := rfl

/-- `answer` of an error raises it. -/
@[simp] theorem State.answer_error {α : Type} (s : State) (e : Status) (f : α → Response) :
    s.answer (.error e) f = s.after s.crcAcc s.escPend e.code (Response.error e) := rfl

/-- Everything `answer` can do: one response, `STATUS` keeps its status, no other register changes. -/
theorem State.answer_cases {α : Type} (s : State) (res : Except Status α) (f : α → Response) :
    (∃ x, res = .ok x ∧ s.answer res f = s.after s.crcAcc s.escPend (f x).status.code (f x)) ∨
    (∃ e, res = .error e ∧ s.answer res f = s.after s.crcAcc s.escPend e.code (Response.error e)) := by
  cases res with
  | ok x => exact .inl ⟨x, rfl, rfl⟩
  | error e => exact .inr ⟨e, rfl, rfl⟩

/-- The number of a status code is at most 8 (R85). -/
theorem Status.code_le (e : Status) : e.code.toNat ≤ 8 := by
  cases e <;> decide

/-- The status codes are distinct (R85). -/
theorem Status.code_injective (a b : Status) (h : a.code = b.code) : a = b := by
  cases a <;> cases b <;> first | rfl | exact absurd h (by decide)

/-- Everything `fetch` can find. -/
theorem fetch_cases (s : State) :
    (s.script = [] ∧ fetch s = .idle) ∨
    (∃ o rest, s.script = .powerOnReset o :: rest ∧ fetch s = .powerOn) ∨
    (∃ t rest e, s.script = .command t :: rest ∧ decode t.cw = .error e ∧ fetch s = .illegal e) ∨
    (∃ t rest i, s.script = .command t :: rest ∧ decode t.cw = .ok i ∧ fetch s = .instr i) := by
  match h : s.script with
  | [] => exact .inl ⟨rfl, by simp [fetch, h]⟩
  | .powerOnReset o :: rest => exact .inr (.inl ⟨o, rest, rfl, by simp [fetch, h]⟩)
  | .command t :: rest =>
    match hd : decode t.cw with
    | .error e => exact .inr (.inr (.inl ⟨t, rest, e, rfl, hd, by simp [fetch, h, hd]⟩))
    | .ok i => exact .inr (.inr (.inr ⟨t, rest, i, rfl, hd, by simp [fetch, h, hd]⟩))

/-- A bit is 0 or 1. -/
theorem escPend_cases (b : BitVec 1) : b = 0#1 ∨ b = 1#1 := by
  revert b
  decide

end Sys2Proof.Machine
end

