-- ==== Sys2Proof/Laws/PerInstr.lean ====
section
/-!
SUPPORT. The per-instruction family `TableRow`: the command word of every command matches its row of spec/opcode_table.json
(its `mask` and `match`), and every bit outside the mask is the command's byte operand (30_encoding.md R70, R72, R73).
-/
namespace Sys2Proof.Laws.TableRow

/-- The `match` of the row of a command in spec/opcode_table.json. -/
def rowMatch : Instr → Word16
  | .crcInit => 0x0001#16
  | .crcUpdate _ => 0x0002#16
  | .crcRead => 0x0003#16
  | .crcBlock => 0x0004#16
  | .escEncByte _ => 0x0010#16
  | .escEncBlock => 0x0011#16
  | .escDecReset => 0x0018#16
  | .escDecByte _ => 0x0019#16
  | .escDecFlush => 0x001A#16
  | .escDecBlock => 0x001B#16
  | .frameEncode => 0x0020#16
  | .frameDecode => 0x0021#16
  | .statRead => 0x00F0#16
  | .softReset => 0x00FF#16

/-- The byte operand of a command, if its format is `CW-D` (R72). -/
def byteOf : Instr → Option Byte
  | .crcInit => none
  | .crcUpdate d => some d
  | .crcRead => none
  | .crcBlock => none
  | .escEncByte d => some d
  | .escEncBlock => none
  | .escDecReset => none
  | .escDecByte d => some d
  | .escDecFlush => none
  | .escDecBlock => none
  | .frameEncode => none
  | .frameDecode => none
  | .statRead => none
  | .softReset => none

/-- The `mask` of the row: all 16 bits for `CW-N`, the opcode's 8 for `CW-D`. -/
def rowMask (i : Instr) : Word16 := if (byteOf i).isSome then 0x00FF#16 else 0xFFFF#16

/-- The word of `i` matches its row, and its `DATA` field is its byte operand, 0x00 without one. -/
def Statement (i : Instr) : Prop :=
  encode i &&& rowMask i = rowMatch i ∧ encode i >>> 8 = ((byteOf i).getD 0x00#8).setWidth 16

/-- For a `CW-D` word: the opcode's bits and the operand's. -/
theorem cwD_fields (d opc : Byte) :
    cwOf d opc &&& 0x00FF#16 = opc.setWidth 16 ∧ cwOf d opc >>> 8 = d.setWidth 16 := by
  constructor
  · apply BitVec.eq_of_toNat_eq
    have hd := d.isLt
    have ho := opc.isLt
    have h1 : (d.toNat <<< 8 ||| opc.toNat) % 2 ^ 8 = opc.toNat := by
      rw [Nat.shiftLeft_eq, Nat.mul_comm, ← Nat.two_pow_add_eq_or_of_lt ho]
      omega
    have h2 : d.toNat <<< 8 < 65536 := by
      rw [Nat.shiftLeft_eq]
      omega
    simp [cwOf, Nat.mod_eq_of_lt (show d.toNat < 65536 by omega), Nat.mod_eq_of_lt (show opc.toNat < 65536 by omega),
      Nat.mod_eq_of_lt h2]
    rw [show (255 : Nat) = 2 ^ 8 - 1 by rfl, Nat.and_two_pow_sub_one_eq_mod]
    exact h1
  · apply BitVec.eq_of_toNat_eq
    have hd := d.isLt
    have ho := opc.isLt
    have h2 : d.toNat <<< 8 < 65536 := by
      rw [Nat.shiftLeft_eq]
      omega
    have h1 : (d.toNat <<< 8 ||| opc.toNat) >>> 8 = d.toNat := by
      rw [Nat.shiftLeft_eq, Nat.mul_comm, ← Nat.two_pow_add_eq_or_of_lt ho, Nat.shiftRight_eq_div_pow]
      omega
    simp [cwOf, Nat.mod_eq_of_lt (show d.toNat < 65536 by omega), Nat.mod_eq_of_lt (show opc.toNat < 65536 by omega),
      Nat.mod_eq_of_lt h2]
    exact h1

theorem crcInit : Statement .crcInit := ⟨by decide, by decide⟩
theorem crcUpdate (d : Byte) : Statement (.crcUpdate d) := cwD_fields d 0x02#8
theorem crcRead : Statement .crcRead := ⟨by decide, by decide⟩
theorem crcBlock : Statement .crcBlock := ⟨by decide, by decide⟩
theorem escEncByte (d : Byte) : Statement (.escEncByte d) := cwD_fields d 0x10#8
theorem escEncBlock : Statement .escEncBlock := ⟨by decide, by decide⟩
theorem escDecReset : Statement .escDecReset := ⟨by decide, by decide⟩
theorem escDecByte (d : Byte) : Statement (.escDecByte d) := cwD_fields d 0x19#8
theorem escDecFlush : Statement .escDecFlush := ⟨by decide, by decide⟩
theorem escDecBlock : Statement .escDecBlock := ⟨by decide, by decide⟩
theorem frameEncode : Statement .frameEncode := ⟨by decide, by decide⟩
theorem frameDecode : Statement .frameDecode := ⟨by decide, by decide⟩
theorem statRead : Statement .statRead := ⟨by decide, by decide⟩
theorem softReset : Statement .softReset := ⟨by decide, by decide⟩

end Sys2Proof.Laws.TableRow
end

