-- ==== Sys2Proof/Laws/Run.lean ====
section
/-!
SUPPORT. Runs of the host's script: one transaction at a time, and one run after another.
-/
namespace Sys2Proof.Machine

@[simp] theorem run_zero (s : State) : run 0 s = .next s := rfl

/-- A run whose first step answers goes on from there. -/
theorem run_succ {k : Nat} {s t : State} (h : step s = .next t) : run (k + 1) s = run k t := by
  simp [run, h]

/-- A run of `j + k` steps is the run of `j` and then of `k`. -/
theorem run_add {j k : Nat} {s t : State} (h : run j s = .next t) : run (j + k) s = run k t := by
  induction j generalizing s with
  | zero =>
    cases h
    rw [Nat.zero_add]
  | succ j ih =>
    cases hs : step s with
    | next u =>
      rw [run_succ hs] at h
      rw [Nat.add_right_comm, run_succ hs]
      exact ih h
    | fault r => cases r
    | refused r => simp [run, hs] at h

/-- A run of any machine whose first step answers goes on from there. -/
theorem core_run_succ (M : Host.Core) {k : Nat} {s t : M.State} (h : M.step s = .next t) : M.run (k + 1) s = M.run k t := by
  simp [Host.Core.run, h]

/-- A run of any machine whose first step is refused is refused. -/
theorem core_run_refused (M : Host.Core) {k : Nat} {s : M.State} {r : M.Refusal} (h : M.step s = .refused r) :
    M.run (k + 1) s = .refused r := by
  simp [Host.Core.run, h]

/-- `run` is the host's run of this machine. -/
theorem run_eq_core (k : Nat) (s : State) : run k s = Host.Core.run Sys2Proof.core k s := by
  induction k generalizing s with
  | zero => rfl
  | succ k ih =>
    cases h : step s with
    | next t => exact (run_succ h).trans ((ih t).trans (core_run_succ Sys2Proof.core h).symm)
    | fault r => cases r
    | refused r =>
      have h1 : run (k + 1) s = .refused r := by simp [run, h]
      exact h1.trans (core_run_refused Sys2Proof.core h).symm

/-- The step of a command's own transaction is its meaning, on the state with that transaction on the port (R71, R75). -/
theorem step_of_command {s : State} {t : Transaction} {rest : List HostEvent} {i : Instr}
    (h : s.script = .command t :: rest) (hd : decode t.cw = .ok i) : step s = exec i s := by
  simp [step, fetch, h, hd]

end Sys2Proof.Machine
end

