-- ==== Sys2Proof/Tests/Slice0.lean ====
section
/-!
SUPPORT. The model's own tests. Expected values come from spec/95_test_vectors.md (the vector is named at each test) or
from the rule named. Then the witnesses: for every statement with hypotheses, a concrete state and operands that meet
them.
-/
namespace Sys2Proof.Tests

open Sys2Proof.Machine

/-! ## Helpers and the data of 95_test_vectors.md -/

/-- The state of an outcome, if it is a next state. -/
def stateOf (o : Host.Outcome State Fault Refusal) : Option State :=
  match o with
  | .next s => some s
  | _ => none

/-- The last response of a next state. -/
def replyOf (o : Host.Outcome State Fault Refusal) : Option Response := (stateOf o).bind fun s => s.responses.getLast?

/-- The three registers of a next state. -/
def regsOf (o : Host.Outcome State Fault Refusal) : Option (Word16 × BitVec 1 × BitVec 4) :=
  (stateOf o).map fun s => (s.crcAcc, s.escPend, s.status)

/-- Operands with a byte sequence and a capacity. -/
def bytes (src : List Byte) (cap : Nat) : OperandBundle := { OperandBundle.empty with src := src, cap := cap }

/-- Operands with a table and a capacity. -/
def table (t : DataTable) (cap : Nat) : OperandBundle := { OperandBundle.empty with tbl := t, cap := cap }

/-- The reset state with one command word and operands on the port. -/
def onPort (w : Word16) (ops : OperandBundle) : State := { State.reset with script := [.command { cw := w, ops := ops }] }

/-- The same with a pending `0xDB`. -/
def onPortPending (w : Word16) : State := { onPort w OperandBundle.empty with escPend := 1#1 }

/-- The same with `MAX_SRC` fixed to 1. -/
def onPortBounded (w : Word16) (ops : OperandBundle) : State := { onPort w ops with maxSrc := some 1 }

def cli : DeviceId := { adminCode := 0x01AD24#24, deviceType := 0x0002#16, deviceId := 0x0100#16 }
def srv : DeviceId := { adminCode := 0x01AD24#24, deviceType := 0x0001#16, deviceId := 0x0001#16 }

/-- T1. -/
def t1 : DataTable :=
  { linkAddr := 0#16, sender := cli, receiver := srv, protocolVersion := 0x10#8, operation := 0x81#8, objectId := 0x0101#16,
    content := [] }

/-- T4. -/
def t4 : DataTable := { t1 with operation := 0x82#8, objectId := 0x0205#16, content := [0xDB#8] }

/-- The wire header of T1 and T4 up to `protocol_version`. -/
def wireStart : List Byte :=
  [0xC0#8, 0x00#8, 0x00#8, 0x24#8, 0xAD#8, 0x01#8, 0x02#8, 0x00#8, 0x00#8, 0x01#8, 0x24#8, 0xAD#8, 0x01#8, 0x01#8, 0x00#8,
   0x01#8, 0x00#8, 0x10#8]

/-- F1. -/
def f1 : List Byte := wireStart ++ [0x81#8, 0x01#8, 0x01#8, 0x4C#8, 0xBE#8, 0xC0#8]

/-- F4: the CRC high byte is escaped. -/
def f4 : List Byte := wireStart ++ [0x82#8, 0x05#8, 0x02#8, 0xDB#8, 0xDD#8, 0xBE#8, 0xDB#8, 0xDD#8, 0xC0#8]

/-- F5: F1 with both CRC bytes xor 0xFF. -/
def f5 : List Byte := wireStart ++ [0x81#8, 0x01#8, 0x01#8, 0xB3#8, 0x41#8, 0xC0#8]

/-! ## Decoding: words written out from 30_encoding.md R73 -/

theorem test_decode_crc_init : decode 0x0001#16 = .ok .crcInit := by decide
theorem test_decode_crc_update : decode 0b0000000100000010#16 = .ok (.crcUpdate 0x01#8) := by decide
theorem test_decode_crc_read : decode 0x0003#16 = .ok .crcRead := by decide
theorem test_decode_crc_block : decode 0x0004#16 = .ok .crcBlock := by decide
theorem test_decode_esc_enc_byte : decode 0b1100000000010000#16 = .ok (.escEncByte 0xC0#8) := by decide
theorem test_decode_esc_enc_block : decode 0b0000000000010001#16 = .ok .escEncBlock := by decide
theorem test_decode_esc_dec_reset : decode 0x0018#16 = .ok .escDecReset := by decide
theorem test_decode_esc_dec_byte : decode 0xDC19#16 = .ok (.escDecByte 0xDC#8) := by decide
theorem test_decode_esc_dec_flush : decode 0x001A#16 = .ok .escDecFlush := by decide
theorem test_decode_esc_dec_block : decode 0x001B#16 = .ok .escDecBlock := by decide
theorem test_decode_frame_encode : decode 0b0000000000100000#16 = .ok .frameEncode := by decide
theorem test_decode_frame_decode : decode 0x0021#16 = .ok .frameDecode := by decide
theorem test_decode_stat_read : decode 0b0000000011110000#16 = .ok .statRead := by decide
theorem test_decode_soft_reset : decode 0x00FF#16 = .ok .softReset := by decide

/-- V-CMD-1 to V-CMD-5. -/
theorem test_decode_rejects :
    decode 0x0000#16 = .error (.reservedOpcode 0x00#8) ∧ decode 0x0101#16 = .error (.nonzeroData 0x01#8 0x01#8) ∧
    decode 0x0005#16 = .error (.reservedOpcode 0x05#8) ∧ decode 0x01F0#16 = .error (.nonzeroData 0xF0#8 0x01#8) ∧
    decode 0x01FF#16 = .error (.nonzeroData 0xFF#8 0x01#8) := by decide

/-- The host's two fixed names on one table row (CRC_UPDATE 0xFF). -/
theorem test_table_word : decodeTableWord 16 0xFF02 = some (.crcUpdate 0xFF#8) ∧
    regsOf (step (State.reset.withFetchWord 16 0xFF02)) = some (0x00FF#16, 0#1, 0#4) := by decide +kernel

/-! ## WellFormed: an ill-formed term for each check -/

theorem test_wf_byte_operand : byteOperandOk 256 = false ∧ byteOperandOk 255 = true := by decide
theorem test_wf_src_length : srcLengthOk (some 1) [0#8, 0#8] = false ∧ srcLengthOk (some 2) [0#8, 0#8] = true := by decide
theorem test_wf_content : ({ t1 with content := List.replicate 1501 0x11#8 } : DataTable).contentOk = false := by
  simp only [DataTable.contentOk, List.length_replicate]
  decide
theorem test_wf_table : ({ t1 with operation := 0x99#8 } : DataTable).tpValid = false ∧
    ({ t1 with linkAddr := 1#16 } : DataTable).tpValid = false ∧
    ({ t1 with protocolVersion := 0x11#8 } : DataTable).tpValid = false ∧ t1.tpValid = true := by decide

/-! ## CRC unit -/

/-- W1, V-CRC-9, V-CRC-10. -/
theorem test_crc_vectors : crc16 [0x01#8, 0x04#8, 0x02#8, 0xFF#8, 0xFF#8] = 0x80B8#16 ∧
    crcStep 0x0000#16 0x01#8 = 0xC0C1#16 ∧ crcStep 0x1234#16 0x56#8 = 0xE993#16 := by decide +kernel

/-- R120, example. -/
theorem test_crc_init : regsOf (step { onPort 0x0001#16 OperandBundle.empty with crcAcc := 0x1234#16 }) =
    some (0xFFFF#16, 0#1, 0#4) := by decide

/-- R121, example. -/
theorem test_crc_update : regsOf (step (onPort 0x0102#16 OperandBundle.empty)) = some (0x807E#16, 0#1, 0#4) := by
  decide +kernel

/-- R122: after reset it returns 0xFFFF. -/
theorem test_crc_read : replyOf (step (onPort 0x0003#16 OperandBundle.empty)) = some ⟨.ok, [], some 0xFFFF#16, none⟩ := by
  decide

/-- R123, example. -/
theorem test_crc_block : replyOf (step (onPort 0x0004#16 (bytes [0x01#8, 0x04#8, 0x02#8, 0xFF#8, 0xFF#8] 0))) =
    some ⟨.ok, [], some 0x80B8#16, none⟩ := by decide +kernel

/-- R123: a `SRC` longer than a fixed `MAX_SRC` leaves `CRC_ACC`. -/
theorem test_crc_block_too_long : regsOf (step (onPortBounded 0x0004#16 (bytes [0x01#8, 0x04#8] 0))) =
    some (0xFFFF#16, 0#1, 1#4) := by decide

/-! ## Escape unit -/

/-- V-ESC-1. -/
theorem test_esc_enc_byte : replyOf (step (onPort 0xC010#16 OperandBundle.empty)) =
    some ⟨.ok, [0xDB#8, 0xDC#8], none, none⟩ := by decide

/-- V-ESC-4. -/
theorem test_esc_enc_block : replyOf (step (onPort 0x0011#16 (bytes [0xC0#8, 0x11#8, 0xDB#8] 5))) =
    some ⟨.ok, [0xDB#8, 0xDC#8, 0x11#8, 0xDB#8, 0xDD#8], none, none⟩ := by decide

/-- V-ESC-5. -/
theorem test_esc_enc_block_small : replyOf (step (onPort 0x0011#16 (bytes [0xC0#8, 0x11#8, 0xDB#8] 4))) =
    some ⟨.bufferSmall, [], none, none⟩ := by decide

/-- V-ESC-24. -/
theorem test_esc_dec_reset : regsOf (step (onPortPending 0x0018#16)) = some (0xFFFF#16, 0#1, 0#4) := by decide

/-- V-ESC-16. -/
theorem test_esc_dec_byte : replyOf (step (onPortPending 0xDC19#16)) = some ⟨.ok, [0xC0#8], none, none⟩ := by decide

/-- V-ESC-18: the second `0xDB` does not start a new escape. -/
theorem test_esc_dec_byte_error : regsOf (step (onPortPending 0xDB19#16)) = some (0xFFFF#16, 0#1, 4#4) := by decide

/-- V-ESC-22. -/
theorem test_esc_dec_flush : regsOf (step (onPortPending 0x001A#16)) = some (0xFFFF#16, 0#1, 4#4) := by decide

/-- V-ESC-7. -/
theorem test_esc_dec_block : replyOf (step (onPort 0x001B#16 (bytes [0xDB#8, 0xDC#8, 0x11#8, 0xDB#8, 0xDD#8] 3))) =
    some ⟨.ok, [0xC0#8, 0x11#8, 0xDB#8], none, none⟩ := by decide

/-- V-ESC-13: `ESCAPE` wins over `BUFFER_SMALL`. -/
theorem test_esc_dec_block_escape_first : replyOf (step (onPort 0x001B#16 (bytes [0xDB#8, 0x00#8] 0))) =
    some ⟨.escape, [], none, none⟩ := by decide

/-! ## Frame unit -/

/-- V-FRM-2: exact capacity. -/
theorem test_frame_encode : replyOf (step (onPort 0x0020#16 (table t1 24))) = some ⟨.ok, f1, none, none⟩ := by
  decide +kernel

/-- V-FRM-5: a CRC byte is escaped. -/
theorem test_frame_encode_escaped_crc : replyOf (step (onPort 0x0020#16 (table t4 3046))) = some ⟨.ok, f4, none, none⟩ := by
  decide +kernel

/-- V-FRM-14. -/
theorem test_frame_decode : replyOf (step (onPort 0x0021#16 (bytes f4 0))) = some ⟨.ok, [], none, some t4⟩ := by
  decide +kernel

/-- V-FRM-16 to V-FRM-19, V-FRM-24, V-FRM-26, V-FRM-27: the errors of `frame_decode`. -/
theorem test_frame_decode_errors : frameDecode f5 = .error .crc ∧ frameDecode [] = .error .format ∧
    frameDecode [0xC0#8] = .error .format ∧ frameDecode [0xC0#8, 0xC0#8] = .error .incomplete ∧
    frameDecode [0xC0#8, 0xDB#8, 0xC0#8] = .error .escape ∧ frameDecode (f1 ++ f1) = .error .escape ∧
    frameDecode ([0xC0#8] ++ List.replicate 21 0x11#8 ++ [0xC0#8]) = .error .incomplete := by decide +kernel

/-! ## Control, rejected words, reset, the host's text -/

/-- R200, example. -/
theorem test_soft_reset :
    regsOf (step { onPort 0x00FF#16 OperandBundle.empty with crcAcc := 0x3901#16, escPend := 1#1, status := 4#4 }) =
    some (0xFFFF#16, 0#1, 0#4) := by decide

/-- V-CMD-7: `STAT_READ` after an illegal command, which leaves `STATUS` as it is. -/
theorem test_stat_read : replyOf (step { onPort 0x00F0#16 OperandBundle.empty with status := 8#4 }) =
    some ⟨.ok, [], some 0x0008#16, none⟩ ∧
    regsOf (step { onPort 0x00F0#16 OperandBundle.empty with status := 8#4 }) = some (0xFFFF#16, 0#1, 8#4) := by decide

/-- V-CMD-5: nothing is reset. -/
theorem test_illegal_command : regsOf (step { onPort 0x01FF#16 OperandBundle.empty with crcAcc := 0x1234#16 }) =
    some (0x1234#16, 0#1, 8#4) := by decide

/-- R242: a command outstanding at power-on reset has no response. -/
theorem test_power_on : (stateOf (step { State.reset with
      crcAcc := 0x1234#16, escPend := 1#1, script := [.powerOnReset (some (Instr.crcRead.issue OperandBundle.empty))] })) =
    some State.reset := by decide

/-- R78, its third example, and a line with a comment only. -/
theorem test_asm : Asm.assemble [("T1".toList, t1)] ["; encode".toList, "FRAME_ENCODE tbl=T1, cap=3046".toList] =
      .ok [{ cw := 0x0020#16, ops := table t1 3046 }] ∧
    Asm.assembleLine [] "CRC_INIT 0x01".toList = .error .badOperand ∧
    Asm.assembleLine [] "FRAME_ENCODE tbl=T2, cap=1".toList = .error .unknownTable ∧
    Asm.assembleLine [] "NOP".toList = .error .unknownMnemonic := by decide +kernel

/-- The digits of R78 at their ends, and the characters next to them. -/
theorem test_digits : Asm.decDigit '0' = some 0 ∧ Asm.decDigit '9' = some 9 ∧ Asm.decDigit 'A' = none ∧ Asm.decDigit '/' = none ∧
    Asm.hexDigit '9' = some 9 ∧ Asm.hexDigit 'A' = some 10 ∧ Asm.hexDigit 'F' = some 15 ∧ Asm.hexDigit 'f' = some 15 ∧
    Asm.hexDigit 'G' = none ∧ Asm.hexDigit 'g' = none ∧ Asm.hexDigit '@' = none := by decide +kernel

/-! ## Witnesses: the hypotheses of every statement are met together, clause by clause -/

/-- A transaction list with one command of each kind used below. -/
def readTwice : List Transaction := [Instr.crcRead.issue OperandBundle.empty, Instr.statRead.issue OperandBundle.empty]

/-- CommandWordDecode, RejectsData (every `CW-N` opcode is reached the same way): a reserved opcode, a non-zero `DATA`, a legal word. -/
theorem test_witness_command_words :
    (onPort 0x0005#16 OperandBundle.empty).script = [.command { cw := 0x0005#16, ops := OperandBundle.empty }] ∧
    (0x0005#16).extractLsb' 0 8 ∉ [0x01#8, 0x02#8, 0x03#8, 0x04#8, 0x10#8, 0x11#8, 0x18#8, 0x19#8, 0x1A#8, 0x1B#8, 0x20#8, 0x21#8,
      0xF0#8, 0xFF#8] ∧
    (0x01F0#16).extractLsb' 0 8 ∉ [0x02#8, 0x10#8, 0x19#8] ∧ (0x01F0#16).extractLsb' 8 8 ≠ 0#8 ∧
    (0xFF02#16).extractLsb' 0 8 = 0x02#8 := by decide

/-- RejectsData, for each of the eleven `CW-N` opcodes: the least non-zero `DATA`. -/
theorem test_witness_rejects_data :
    ∀ opc ∈ [0x01#8, 0x03#8, 0x04#8, 0x11#8, 0x18#8, 0x1A#8, 0x1B#8, 0x20#8, 0x21#8, 0xF0#8, 0xFF#8],
      0x01#8 ≠ 0#8 ∧ (onPort (((0x01#8).setWidth 16 <<< 8) ||| opc.setWidth 16) OperandBundle.empty).script =
        [.command { cw := ((0x01#8).setWidth 16 <<< 8) ||| opc.setWidth 16, ops := OperandBundle.empty }] := by decide

/-- StepRunsDecoded. -/
theorem test_witness_step_runs_decoded : ∃ (s : State) (t : Transaction) (rest : List HostEvent) (i : Instr),
    s.script = .command t :: rest ∧ decode t.cw = .ok i :=
  ⟨onPort 0xDB19#16 OperandBundle.empty, _, _, .escDecByte 0xDB#8, rfl, by decide⟩

/-- IdleKeepsRegisters. -/
theorem test_witness_idle : State.reset.script = [] := rfl

/-- PowerOnResetEvent and the second clause of StatusHoldsLastStatus, with and without an outstanding command. -/
theorem test_witness_power_on : ∀ o ∈ [none, some (Instr.crcRead.issue OperandBundle.empty)],
    ({ State.reset with script := [.powerOnReset o] } : State).script = .powerOnReset o :: [] := by decide

/-- The clauses `SrcFits` and `¬ SrcFits` of CrcBlockResult, EscEncBlockResult, EscDecBlockResult and FrameDecodeResult, at the bound. -/
theorem test_witness_src_fits : (onPortBounded 0x0004#16 (bytes [0x00#8] 0)).SrcFits ∧
    ¬ (onPortBounded 0x0004#16 (bytes [0x00#8, 0x00#8] 0)).SrcFits := by
  refine ⟨?_, ?_⟩
  · rintro m ⟨⟩
    decide
  · intro h
    exact absurd (h 1 rfl) (by decide)

/-- CrcTellsOneByteApart, CorruptedByteIsCrcError: at 20 and at 1520 bytes. -/
theorem test_witness_one_byte : (0x00#8 : Byte) ≠ 0x01#8 ∧ 20 ≤ (List.replicate 19 0x00#8 ++ 0x00#8 :: []).length ∧
    (List.replicate 1519 0x00#8 ++ 0x00#8 :: []).length ≤ 1520 := by
  refine ⟨by decide, ?_, ?_⟩ <;> simp only [List.length_append, List.length_replicate, List.length_cons, List.length_nil] <;> omega

/-- CrcStreamEqualsBlock, both clauses. -/
theorem test_witness_crc_stream :
    ({ State.reset with script := commands ((Pseudo.crcSeq [0x01#8]).issue ++ [Instr.crcRead.issue OperandBundle.empty]) } : State).script =
      commands ((Pseudo.crcSeq [0x01#8]).issue ++ [Instr.crcRead.issue OperandBundle.empty]) ++ [] ∧
    (onPort 0x0004#16 (bytes [0x01#8] 0)).operands.src = [0x01#8] ∧ (onPort 0x0004#16 (bytes [0x01#8] 0)).SrcFits := by
  refine ⟨by simp, rfl, ?_⟩
  rintro m ⟨⟩

/-- EscDecByteResult and EscDecFlushResult: both values of `ESC_PEND`. -/
theorem test_witness_esc_pend : State.reset.escPend = 0#1 ∧ (onPortPending 0x001A#16).escPend = 1#1 := by decide

/-- UnescapeCases (its two conditional clauses) and EscDecBlockResult (its two outcomes of `unesc_seq`). -/
theorem test_witness_unescape : 0xDB#8 ≠ 0xDC#8 ∧ 0xDB#8 ≠ 0xDD#8 ∧ 0xDC#8 ≠ 0xC0#8 ∧ 0xDC#8 ≠ 0xDB#8 ∧
    unescSeq (onPort 0x001B#16 (bytes [0xDB#8] 0)).operands.src = .error .escape ∧
    unescSeq (onPort 0x001B#16 (bytes [0xDB#8, 0xDC#8] 0)).operands.src = .ok [0xC0#8] ∧
    (onPort 0x001B#16 (bytes [0xDB#8] 0)).SrcFits := by
  refine ⟨by decide, by decide, by decide, by decide, by decide, by decide, ?_⟩
  rintro m ⟨⟩

/-- EscapedHasNoDelimiter: an `0xDB` in an escaped sequence. -/
theorem test_witness_escaped : (escSeq [0xC0#8])[0]? = some 0xDB#8 := by decide

/-- UnescapeInvertsEscape: an accepted sequence, and one that is the escape of nothing. -/
theorem test_witness_not_escaped : unescSeq [0xDB#8, 0xDD#8] = .ok [0xDB#8] ∧ ∀ v, escSeq v ≠ [0xC0#8] := by
  refine ⟨by decide, fun v => ?_⟩
  cases v with
  | nil => decide
  | cons b v =>
    intro h
    have hb : escByte b = [delim] ∨ (escByte b).length = 2 ∨ (escByte b = [b] ∧ b ≠ delim) := by
      unfold escByte
      split_ifs <;> simp_all
    have hs : escSeq (b :: v) = escByte b ++ escSeq v := rfl
    rw [hs] at h
    have hl := congrArg List.length h
    rcases hb with hb | hb | ⟨hb, hne⟩
    · unfold escByte at hb
      split_ifs at hb
      all_goals simp_all
    · simp only [List.length_append, hb, List.length_cons, List.length_nil] at hl
      omega
    · rw [hb] at h
      exact hne (List.cons.inj h).1

/-- StreamingEncoderAgrees, StreamingDecoderAgrees: a good and a bad sequence. -/
theorem test_witness_streams :
    ({ State.reset with script := commands (Pseudo.escEncSeq [0xC0#8]).issue } : State).script =
      commands (Pseudo.escEncSeq [0xC0#8]).issue ++ [] ∧
    ({ State.reset with script := commands (Pseudo.escDecSeq [0xDB#8]).issue } : State).script =
      commands (Pseudo.escDecSeq [0xDB#8]).issue ++ [] ∧
    unescSeq [0xDB#8] = .error .escape ∧ unescSeq [0xDB#8, 0xDC#8] = .ok [0xC0#8] := by
  refine ⟨by simp, by simp, by decide, by decide⟩

/-- ParseInvertsSerialize: the shortest header. -/
theorem test_witness_parse : 20 ≤ (List.replicate 20 0x00#8 : List Byte).length := by simp

/-- EncodedFrameShape, DecoderAcceptsExactlyEncoded. -/
theorem test_witness_encoded : frameEncode t1 24 = .ok f1 ∧ frameDecode f1 = .ok t1 := by decide +kernel

/-- `FRAME_DECODE` on the port, `SRC` an escaped interior of `n` bytes between delimiters. -/
def interior (n : Nat) : State := onPort 0x0021#16 (bytes ([0xC0#8] ++ escSeq (List.replicate n 0x11#8) ++ [0xC0#8]) 0)

theorem interior_src (n : Nat) : (interior n).operands.src = [0xC0#8] ++ escSeq (List.replicate n 0x11#8) ++ [0xC0#8] := rfl

theorem interior_fits (n : Nat) : (interior n).SrcFits := by
  rintro m ⟨⟩

/-- FrameDecodeResult: a `SRC` that is no frame, and an interior that is the escape of nothing (test_witness_not_escaped). -/
theorem test_witness_frame_decode :
    (∀ m, (onPort 0x0021#16 (bytes [0xC0#8] 0)).operands.src ≠ [0xC0#8] ++ m ++ [0xC0#8]) ∧
    (onPort 0x0021#16 (bytes [0xC0#8, 0xC0#8, 0xC0#8] 0)).operands.src = [0xC0#8] ++ [0xC0#8] ++ [0xC0#8] := by
  refine ⟨fun m h => ?_, rfl⟩
  have hl := congrArg List.length h
  simp [onPort, bytes, State.operands] at hl

/-- FrameDecodeResult: an escaped interior of 21, 22, 1522 and 1523 unescaped bytes. -/
theorem test_witness_frame_lengths : ((interior 21).SrcFits ∧ (interior 22).SrcFits ∧ (interior 1522).SrcFits ∧ (interior 1523).SrcFits) ∧
    (interior 21).operands.src = [0xC0#8] ++ escSeq (List.replicate 21 0x11#8) ++ [0xC0#8] ∧
    (interior 22).operands.src = [0xC0#8] ++ escSeq (List.replicate 22 0x11#8) ++ [0xC0#8] ∧
    (interior 1522).operands.src = [0xC0#8] ++ escSeq (List.replicate 1522 0x11#8) ++ [0xC0#8] ∧
    (interior 1523).operands.src = [0xC0#8] ++ escSeq (List.replicate 1523 0x11#8) ++ [0xC0#8] :=
  ⟨⟨interior_fits _, interior_fits _, interior_fits _, interior_fits _⟩,
   interior_src _, interior_src _, interior_src _, interior_src _⟩

/-- FrameRoundTrip: the exact capacity of T1's frame. -/
theorem test_witness_round_trip : (onPort 0x0020#16 (table t1 24)).operands.tbl = t1 ∧ t1.content.length ≤ 1500 ∧
    24 + t1.content.length + (unescaped t1).countP (fun b => b == 0xC0#8 || b == 0xDB#8) ≤
      (onPort 0x0020#16 (table t1 24)).operands.cap ∧
    (onPort 0x0021#16 (bytes f1 0)).operands.src = f1 ∧ (onPort 0x0021#16 (bytes f1 0)).SrcFits := by
  refine ⟨rfl, by decide, by decide +kernel, rfl, ?_⟩
  rintro m ⟨⟩

/-- T1 with `n` content bytes, all `0xC0`. -/
def delims (n : Nat) : DataTable := { t1 with content := List.replicate n 0xC0#8 }

theorem delims_length (n : Nat) : (delims n).content.length = n := List.length_replicate

theorem delims_content (n : Nat) : ∀ b ∈ (delims n).content, b = 0xC0#8 := fun _ hb => (List.mem_replicate.1 hb).2

/-- CapacityBounds: at 1001, 1013 and 1500 content bytes. -/
theorem test_witness_capacity : (delims 1001).content.length = 1001 ∧ (delims 1013).content.length = 1013 ∧
    (delims 1500).content.length = 1500 ∧ (∀ b ∈ (delims 1013).content, b = 0xC0#8) ∧
    ∀ b ∈ (delims 1500).content, b = 0xC0#8 :=
  ⟨delims_length _, delims_length _, delims_length _, delims_content _, delims_content _⟩

/-- OneFramePerDecode: accepted frames, noise, and a proper part. -/
theorem test_witness_one_frame : frameDecode f1 = .ok t1 ∧ frameDecode f4 = .ok t4 ∧ 0xFF#8 ≠ 0xC0#8 ∧
    f1 = f1.take 12 ++ f1.drop 12 ++ [] ∧ f1.take 12 ++ [] ≠ [] := by decide +kernel

/-- CandidateFrameIsNeverFormat. -/
theorem test_witness_candidate : CandidateFrame [0xC0#8, 0x11#8, 0xC0#8] := ⟨[0x11#8], rfl, by decide⟩

/-- StepKeepsInvariant: the reset state meets `Inv`, and a step from a state that meets it answers. -/
theorem test_witness_invariant : (onPort 0x0003#16 OperandBundle.empty).Inv ∧
    (stateOf (step (onPort 0x0003#16 OperandBundle.empty))).isSome = true := by
  refine ⟨⟨by decide, ?_⟩, by decide⟩
  simp [onPort, State.reset]

/-- StatusHoldsLastStatus: its first clause, for `STAT_READ`, `SOFT_RESET` and another command. -/
theorem test_witness_status : ∀ w ∈ [0x00F0#16, 0x00FF#16, 0x0000#16],
    (onPort w OperandBundle.empty).script = .command { cw := w, ops := OperandBundle.empty } :: [] := fun _ _ => rfl

/-- RaisingWritesOnlyStatus: a command that raises. -/
theorem test_witness_raising : ∃ (s t : State) (tr : Transaction) (rest : List HostEvent) (r : Response),
    s.script = .command tr :: rest ∧ step s = .next t ∧ t.responses = s.responses ++ [r] ∧ r.status ≠ .ok :=
  ⟨onPortPending 0x001A#16, _, _, _, Response.error .escape, rfl, rfl, rfl, by decide⟩

/-- RaisingWritesOnlyStatus, its two clauses on `ESC_PEND`: `ESC_DEC_FLUSH` and both errors of `ESC_DEC_BYTE` leave 0; a rejected word
and an error of `ESC_DEC_BLOCK` leave a pending `0xDB`. -/
theorem test_witness_raising_pend :
    [0x001A#16, 0x1119#16, 0xDB19#16].map (fun w => regsOf (step (onPortPending w))) =
      [some (0xFFFF#16, 0#1, 4#4), some (0xFFFF#16, 0#1, 4#4), some (0xFFFF#16, 0#1, 4#4)] ∧
    regsOf (step (onPort 0xC019#16 OperandBundle.empty)) = some (0xFFFF#16, 0#1, 4#4) ∧
    regsOf (step (onPortPending 0x0000#16)) = some (0xFFFF#16, 1#1, 8#4) ∧
    regsOf (step { onPort 0x001B#16 (bytes [0xDB#8] 1) with escPend := 1#1 }) = some (0xFFFF#16, 1#1, 4#4) := by decide

/-- RegisterWriters: commands that change `CRC_ACC`, `ESC_PEND` and `STATUS`. -/
theorem test_witness_writers :
    regsOf (exec (.crcUpdate 0x01#8) State.reset) = some (0x807E#16, 0#1, 0#4) ∧
    regsOf (exec (.escDecByte 0xDB#8) State.reset) = some (0xFFFF#16, 1#1, 0#4) ∧
    regsOf (exec (.escDecByte 0xC0#8) State.reset) = some (0xFFFF#16, 0#1, 4#4) := by decide +kernel

/-- PureCommandsUseOperandsOnly: two states with the same operands and different registers. -/
theorem test_witness_pure : (onPort 0x0020#16 (table t1 24)).operands =
      ({ onPort 0x0020#16 (table t1 24) with crcAcc := 0x1234#16, escPend := 1#1 } : State).operands ∧
    (onPort 0x0020#16 (table t1 24)).maxSrc =
      ({ onPort 0x0020#16 (table t1 24) with crcAcc := 0x1234#16, escPend := 1#1 } : State).maxSrc := ⟨rfl, rfl⟩

/-- UnnamedOperandsAreIgnored: `FRAME_DECODE` with the same `SRC` and a different `CAP` and `TBL`. -/
theorem test_witness_unnamed : (onPort 0x0021#16 (bytes f1 0)).operands.src =
      (onPort 0x0021#16 { table t1 24 with src := f1 }).operands.src ∧
    (onPort 0x0021#16 (bytes f1 0)).crcAcc = (onPort 0x0021#16 { table t1 24 with src := f1 }).crcAcc ∧
    Instr.frameDecode ∉ [Instr.escEncBlock, .escDecBlock, .frameEncode] ∧ Instr.frameDecode ≠ .frameEncode := by decide

/-- OneResponsePerCommandInOrder. -/
theorem test_witness_in_order : ({ State.reset with script := commands (readTwice ++ readTwice) } : State).script =
    commands (readTwice ++ readTwice) ++ [] := by simp

/-- IdempotentCommands: its two lists have members. -/
theorem test_witness_idempotent : Instr.crcInit ∈ [Instr.crcInit, .escDecReset, .softReset] ∧
    Instr.crcRead ∈ [Instr.crcRead, .statRead] := by decide

end Sys2Proof.Tests
end

section
/-!
PROOF. 10_state.md R35: `STATUS` after a transaction. What a decoded word says of the word, what every command does to the port and to
`STATUS`, and from both what a step with a transaction on the port does.
-/
namespace Sys2Proof

/-- A word that decodes to a command is the word of that command (30_encoding.md R73, R75). -/
theorem encode_of_decode {w : Word16} {i : Instr} (h : decode w = .ok i) : encode i = w := by
  rcases opcodeRow_cases (cwOpc w) with ⟨hrow, -⟩ | ⟨j, hrow, hj, -⟩ | ⟨f, hrow, hf, -⟩
  · simp [decode, hrow] at h
  · by_cases hdata : cwData w = 0x00#8
    · obtain rfl : j = i := by simpa [decode, hrow, hdata] using h
      rw [hj, ← hdata, cwOf_fields]
    · simp [decode, hrow, hdata] at h
  · obtain rfl : f (cwData w) = i := by simpa [decode, hrow] using h
    rw [hf, cwOf_fields]

/-- `0x00F0` is the one word of `STAT_READ` (30_encoding.md R73). -/
theorem decode_statRead_iff (w : Word16) : decode w = .ok .statRead ↔ w = 0x00F0#16 := by
  constructor
  · exact fun h => (encode_of_decode h).symm
  · rintro rfl
    rfl

end Sys2Proof

namespace Sys2Proof.Machine

/-- The step of a word that decode rejects, as the whole state it leaves (30_encoding.md R75, 60_exceptions.md R216). -/
theorem step_of_rejected {s : State} {t : Transaction} {rest : List HostEvent} {e : DecodeError}
    (h : s.script = .command t :: rest) (hd : decode t.cw = .error e) :
    step s = .next (s.after s.crcAcc s.escPend 8#4 (Response.error .illegalCmd)) := by
  simp only [step, fetch, h, hd]
  rfl

/-- The step of a power-on reset (70_reset_and_hazards.md R240, R242). -/
theorem step_of_powerOnReset {s : State} {o : Option Transaction} {rest : List HostEvent}
    (h : s.script = .powerOnReset o :: rest) : step s = .next s.powerOn := by
  simp only [step, fetch, h]

/-- `STAT_READ` as the whole state it leaves: `STATUS` stays (43_control.md R201). -/
theorem exec_statRead_eq_after (s : State) :
    exec .statRead s = .next (s.after s.crcAcc s.escPend s.status (Response.ofVal (statusValue s.status))) := rfl

/-- `SOFT_RESET` as the whole state it leaves (43_control.md R200). -/
theorem exec_softReset_eq_after (s : State) :
    exec .softReset s = .next (s.after crcInitVal 0#1 0#4 Response.done) := rfl

/-- `answer` returns one response, and `STATUS` keeps its status. -/
theorem State.answer_eq_after {α : Type} (s : State) (res : Except Status α) (f : α → Response) :
    ∃ r, s.answer res f = s.after s.crcAcc s.escPend r.status.code r := by
  rcases s.answer_cases res f with ⟨x, -, h⟩ | ⟨e, -, h⟩
  · exact ⟨f x, h⟩
  · exact ⟨Response.error e, h⟩

/-- Every command except `STAT_READ` returns one response and leaves its status in `STATUS` (R35). -/
theorem exec_eq_after (i : Instr) (s : State) (hi : i ≠ .statRead) :
    ∃ c p r, exec i s = .next (s.after c p r.status.code r) := by
  cases i with
  | crcInit => exact ⟨_, _, Response.done, rfl⟩
  | crcUpdate d => exact ⟨_, _, Response.done, rfl⟩
  | crcRead => exact ⟨_, _, Response.ofVal s.crcAcc, rfl⟩
  | crcBlock =>
    simp only [exec, execCrcBlock]
    rcases s.readSrc_cases with ⟨-, h⟩ | ⟨-, h⟩ <;> rw [h]
    · exact ⟨_, _, Response.ofVal (crc16 s.operands.src), rfl⟩
    · exact ⟨_, _, Response.error .invalidParam, rfl⟩
  | escEncByte d => exact ⟨_, _, Response.ofOut (escByte d), rfl⟩
  | escDecReset => exact ⟨_, _, Response.done, rfl⟩
  | escDecByte d =>
    simp only [exec, execEscDecByte]
    split_ifs
    · exact ⟨_, _, Response.done, rfl⟩
    · exact ⟨_, _, Response.error .escape, rfl⟩
    · exact ⟨_, _, Response.ofOut [d], rfl⟩
    · exact ⟨_, _, Response.ofOut [delim], rfl⟩
    · exact ⟨_, _, Response.ofOut [esc], rfl⟩
    · exact ⟨_, _, Response.error .escape, rfl⟩
  | escDecFlush =>
    simp only [exec, execEscDecFlush]
    split_ifs
    · exact ⟨_, _, Response.error .escape, rfl⟩
    · exact ⟨_, _, Response.done, rfl⟩
  | escEncBlock | escDecBlock | frameEncode | frameDecode =>
    obtain ⟨r, h⟩ := s.answer_eq_after _ _
    exact ⟨_, _, r, congrArg Host.Outcome.next h⟩
  | statRead => exact absurd rfl hi
  | softReset => exact ⟨_, _, Response.done, rfl⟩

/-- A transaction on the port, its word rejected or not, ends with one response, and `STATUS` keeps its status unless the word is
that of `STAT_READ` (R35). -/
theorem step_of_transaction {s : State} {tr : Transaction} {rest : List HostEvent} (h : s.script = .command tr :: rest) :
    ∃ c p r, step s = .next (s.after c p (if tr.cw = 0x00F0#16 then s.status else r.status.code) r) := by
  cases hd : decode tr.cw with
  | error e =>
    have hw : tr.cw ≠ 0x00F0#16 := fun hw => by simp [(decode_statRead_iff tr.cw).2 hw] at hd
    simp only [step_of_rejected h hd, if_neg hw]
    exact ⟨_, _, Response.error .illegalCmd, rfl⟩
  | ok i =>
    rw [step_of_command h hd]
    by_cases hw : tr.cw = 0x00F0#16
    · obtain rfl : .statRead = i := by simpa [(decode_statRead_iff tr.cw).2 hw] using hd
      simp only [exec_statRead_eq_after, if_pos hw]
      exact ⟨_, _, _, rfl⟩
    · have hi : i ≠ .statRead := fun hi => hw ((decode_statRead_iff tr.cw).1 (hi ▸ hd))
      obtain ⟨c, p, r, hr⟩ := exec_eq_after i s hi
      exact ⟨c, p, r, by rw [hr, if_neg hw]⟩

/-- The step of the word of `SOFT_RESET` (43_control.md R200). -/
theorem step_of_softReset {s : State} {tr : Transaction} {rest : List HostEvent} (h : s.script = .command tr :: rest)
    (hw : tr.cw = 0x00FF#16) : step s = .next (s.after crcInitVal 0#1 0#4 Response.done) := by
  have hd : decode tr.cw = .ok .softReset := by
    rw [hw]
    rfl
  rw [step_of_command h hd, exec_softReset_eq_after]

/-- Settles O46: `step_of_transaction` gives the response and `STATUS`; the resets are read off their own steps. -/
theorem statusHoldsLastStatus : Obligations.StatusHoldsLastStatus := by
  unfold Obligations.StatusHoldsLastStatus
  refine ⟨fun s tr rest h => ?_, fun s o rest h => ?_, rfl⟩
  · obtain ⟨c, p, r, hstep⟩ := step_of_transaction h
    refine ⟨_, r, hstep, by simp [h], by simp, r.status.code_le, by simp, fun hw => ?_⟩
    have heq := Host.Outcome.next.inj (hstep.symm.trans (step_of_softReset h hw))
    rw [heq, State.after_status]
  · exact ⟨s.powerOn, step_of_powerOnReset h, s.powerOn_status⟩

end Sys2Proof.Machine
end

section
/-!
PROOF. 30_encoding.md: which command words decode rejects (R75) and what a step does with any word on the port (R75, R216); the
octets of the unescaped frame (R91).
-/
namespace Sys2Proof

/-- The 14 opcodes of the opcode map (R73). -/
def mapOpcodes : List Byte :=
  [0x01#8, 0x02#8, 0x03#8, 0x04#8, 0x10#8, 0x11#8, 0x18#8, 0x19#8, 0x1A#8, 0x1B#8, 0x20#8, 0x21#8, 0xF0#8, 0xFF#8]

/-- The opcodes of the `CW-D` commands, whose `DATA` byte is an operand (R72, R73). -/
def cwDOpcodes : List Byte := [0x02#8, 0x10#8, 0x19#8]

theorem mem_mapOpcodes_of_cwD : ∀ opc ∈ cwDOpcodes, opc ∈ mapOpcodes := by decide

theorem mem_mapOpcodes_of_cwN :
    ∀ opc ∈ [0x01#8, 0x03#8, 0x04#8, 0x11#8, 0x18#8, 0x1A#8, 0x1B#8, 0x20#8, 0x21#8, 0xF0#8, 0xFF#8],
      opc ∈ mapOpcodes ∧ opc ∉ cwDOpcodes := by decide

/-- Decode rejects a word exactly when its opcode is outside the opcode map, or is a `CW-N` opcode beside a non-zero `DATA` byte
(R75): the three kinds of opcode that `opcodeRow_cases` names. -/
theorem decode_rejects_iff (w : Word16) :
    (∃ e, decode w = .error e) ↔ cwOpc w ∉ mapOpcodes ∨ (cwOpc w ∉ cwDOpcodes ∧ cwData w ≠ 0#8) := by
  rcases opcodeRow_cases (cwOpc w) with ⟨hrow, hout⟩ | ⟨i, hrow, -, hcwN⟩ | ⟨f, hrow, -, hcwD⟩
  · exact iff_of_true ⟨.reservedOpcode (cwOpc w), by simp [decode, hrow]⟩ (.inl hout)
  · obtain ⟨hmem, hnotD⟩ := mem_mapOpcodes_of_cwN _ hcwN
    by_cases hdata : cwData w = 0#8 <;> simp [decode, hrow, hmem, hnotD, hdata]
  · have hmem := mem_mapOpcodes_of_cwD _ hcwD
    refine iff_of_false (by simp [decode, hrow]) ?_
    rintro (hout | ⟨hnotD, -⟩)
    · exact hout hmem
    · exact hnotD hcwD

end Sys2Proof

namespace Sys2Proof.Machine

/-- Settles O3: a word that meets the condition is one decode rejects (`decode_rejects_iff`), and any other decodes to the command
whose word it is (`encode_of_decode`). -/
theorem commandWordDecode : Obligations.CommandWordDecode := by
  unfold Obligations.CommandWordDecode
  intro s w ops rest h
  split_ifs with hc
  · obtain ⟨e, hd⟩ := (decode_rejects_iff w).2 hc
    exact step_of_rejected h hd
  · cases hd : decode w with
    | error e => exact absurd ((decode_rejects_iff w).1 ⟨e, hd⟩) hc
    | ok i => exact ⟨i, encode_of_decode hd, step_of_command h hd⟩

/-- What precedes the CRC in the unescaped sequence is the serialized table (R91, 42_frame.md R160). -/
theorem take_unescaped (t : DataTable) : (unescaped t).take (20 + t.content.length) = ser t :=
  List.take_left' (ser_length t)

/-- Settles O30: the first 20 + n octets are `ser t`, so the CRC written in the statement is the one `withCrc` appends. -/
theorem unescapedLayout : Obligations.UnescapedLayout := by
  unfold Obligations.UnescapedLayout
  intro t
  rw [take_unescaped]
  refine ⟨rfl, ?_⟩
  have hlen : (unescaped t).length = (ser t).length + 2 := withCrc_length (ser t)
  rw [hlen, ser_length]
  omega

end Sys2Proof.Machine
end

section
/-!
PROOF. The four CRC commands (40_crc.md R110, R120 to R123): the rejection of a `CW-N` word with a non-zero `DATA` byte, the byte step
as the loop that R110 writes, and each command as the whole state it leaves.
-/
namespace Sys2Proof.Machine

/-- Decode rejects a non-zero `DATA` byte beside any opcode that is not `CW-D` (30_encoding.md R72, R75, 60_exceptions.md R216). -/
theorem rejectsData_of_not_cwD {opc : Byte} (h : opc ∉ cwDOpcodes) : RejectsData opc := by
  intro s d ops rest hd hs
  obtain ⟨e, he⟩ : ∃ e, decode (cwOf d opc) = .error e :=
    (decode_rejects_iff _).2 (.inr ⟨by rwa [cwOpc_cwOf], by rwa [cwData_cwOf]⟩)
  exact step_of_rejected hs he

/-- One shift of R110, with its test `c[0] = 1` as a mask. -/
theorem crcShift_eq_ite (c : Word16) :
    crcShift c = if c &&& 1#16 = 1#16 then (c >>> 1) ^^^ 0xA001#16 else c >>> 1 := by
  have hbit : c &&& 1#16 = 1#16 ↔ c.getLsbD 0 = true := by
    rw [BitVec.and_one_eq_setWidth_ofBool_getLsbD]
    cases c.getLsbD 0 <;> decide
  simp only [crcShift, crcPolyRefl, hbit]

/-- `Nat.repeat` applies its function as `Nat.iterate` does. -/
theorem repeat_eq_iterate {α : Type} (f : α → α) (n : Nat) (a : α) : Nat.repeat f n a = f^[n] a := by
  induction n with
  | zero => rfl
  | succ n ih => rw [Nat.repeat, ih, Function.iterate_succ_apply']

/-- The byte step is R110's loop of eight conditional shifts. -/
theorem crcStep_eq_foldl (c : Word16) (d : Byte) :
    crcStep c d = (List.range 8).foldl
      (fun (c : Word16) _ => if c &&& 1#16 = 1#16 then (c >>> 1) ^^^ 0xA001#16 else c >>> 1) (c ^^^ d.setWidth 16) := by
  simp only [← crcShift_eq_ite, List.foldl_const, List.length_range]
  exact repeat_eq_iterate crcShift 8 _

/-- `CRC_INIT` as the whole state it leaves (R120). -/
theorem exec_crcInit_eq_after (s : State) :
    exec .crcInit s = .next (s.after 0xFFFF#16 s.escPend 0#4 Response.done) := rfl

/-- `CRC_UPDATE` as the whole state it leaves (R121). -/
theorem exec_crcUpdate_eq_after (d : Byte) (s : State) :
    exec (.crcUpdate d) s = .next (s.after (crcStep s.crcAcc d) s.escPend 0#4 Response.done) := rfl

/-- `CRC_READ` as the whole state it leaves (R122). -/
theorem exec_crcRead_eq_after (s : State) :
    exec .crcRead s = .next (s.after s.crcAcc s.escPend 0#4 (Response.ofVal s.crcAcc)) := rfl

/-- `CRC_BLOCK` of a `SRC` within `MAX_SRC`, as the whole state it leaves (R123). -/
theorem exec_crcBlock_of_srcFits {s : State} (h : s.SrcFits) :
    exec .crcBlock s =
      .next (s.after (crc16 s.operands.src) s.escPend 0#4 (Response.ofVal (crc16 s.operands.src))) := by
  simp only [exec, execCrcBlock, s.readSrc_fits h]
  rfl

/-- `CRC_BLOCK` of a `SRC` above `MAX_SRC`, as the whole state it leaves (R123). -/
theorem exec_crcBlock_of_not_srcFits {s : State} (h : ¬ s.SrcFits) :
    exec .crcBlock s = .next (s.after s.crcAcc s.escPend 1#4 (Response.error .invalidParam)) := by
  simp only [exec, execCrcBlock, s.readSrc_too_long h]
  rfl

/-- Settles O10: the word by evaluation, the rejection because 0x01 is a `CW-N` opcode, the effect by `exec_crcInit_eq_after`. -/
theorem crcInitResult : Obligations.CrcInitResult := by
  unfold Obligations.CrcInitResult
  exact ⟨by decide, rejectsData_of_not_cwD (by decide), exec_crcInit_eq_after⟩

/-- Settles O11: the loop in the statement is the byte step (`crcStep_eq_foldl`). -/
theorem crcUpdateResult : Obligations.CrcUpdateResult := by
  unfold Obligations.CrcUpdateResult
  refine fun d => ⟨rfl, fun s => ?_⟩
  rw [← crcStep_eq_foldl]
  exact exec_crcUpdate_eq_after d s

/-- Settles O12, as O10. -/
theorem crcReadResult : Obligations.CrcReadResult := by
  unfold Obligations.CrcReadResult
  exact ⟨by decide, rejectsData_of_not_cwD (by decide), exec_crcRead_eq_after⟩

/-- Settles O13: both outcomes of `SRC` against `MAX_SRC`; the fold in the statement is `crc16` (`crc16_eq_foldl`). -/
theorem crcBlockResult : Obligations.CrcBlockResult := by
  unfold Obligations.CrcBlockResult
  refine ⟨by decide, rejectsData_of_not_cwD (by decide), fun s hfit => ?_, fun s hlong => ?_⟩
  · rw [← crc16_eq_foldl]
    exact exec_crcBlock_of_srcFits hfit
  · exact exec_crcBlock_of_not_srcFits hlong

end Sys2Proof.Machine
end

section
/-!
PROOF. The six escape commands (41_escape.md R130 to R132, R140 to R150): the length of an escaped sequence, each command as the whole
state it leaves, and the independence of the commands built on `answer` from `CRC_ACC` and `ESC_PEND` (R150, 42_frame.md R163).
-/
namespace Sys2Proof.Machine

/-- A special byte escapes to two bytes and any other to one (R130). -/
theorem escByte_length (b : Byte) : (escByte b).length = if isSpecial b then 2 else 1 := by
  by_cases hdelim : b = delim
  · simp [escByte, isSpecial, hdelim]
  · by_cases hesc : b = esc
    · rw [hesc]
      rfl
    · simp [escByte, isSpecial, hdelim, hesc]

/-- The length of an escaped sequence: one more for every special byte (R131, R141). -/
theorem escSeq_length (bs : List Byte) : (escSeq bs).length = bs.length + countSpecial bs := by
  induction bs with
  | nil => rfl
  | cons b bs ih =>
    rw [escSeq_cons, List.length_append, escByte_length, ih, countSpecial, countSpecial, List.countP_cons, List.length_cons]
    split_ifs <;> omega

/-- `answer` of a sequence checked against `CAP`, as the whole state it leaves: the sequence, or `BUFFER_SMALL` and no output
(R141, R148). -/
theorem State.answer_fitCap (s : State) (cap : Nat) (w : List Byte) :
    s.answer (fitCap cap w) Response.ofOut =
      if w.length ≤ cap then s.after s.crcAcc s.escPend 0#4 (Response.ofOut w)
      else s.after s.crcAcc s.escPend 2#4 (Response.error .bufferSmall) := by
  rcases fitCap_cases cap w with ⟨hfit, h⟩ | ⟨hlong, h⟩
  · rw [h, if_pos hfit]
    rfl
  · rw [h, if_neg (Nat.not_le.2 hlong)]
    rfl

/-- `answer` of a function of `SRC`, when `SRC` is above `MAX_SRC` (R141, R148). -/
theorem State.answer_readSrc_of_not_srcFits {α : Type} {s : State} (h : ¬ s.SrcFits) (g : List Byte → Except Status α)
    (f : α → Response) :
    s.answer (s.readSrc.bind g) f = s.after s.crcAcc s.escPend 1#4 (Response.error .invalidParam) := by
  rw [s.readSrc_too_long h]
  rfl

/-- `answer` of a function of `SRC`, when `SRC` is within `MAX_SRC`. -/
theorem State.answer_readSrc_of_srcFits {α : Type} {s : State} (h : s.SrcFits) (g : List Byte → Except Status α)
    (f : α → Response) : s.answer (s.readSrc.bind g) f = s.answer (g s.operands.src) f := by
  rw [s.readSrc_fits h]
  rfl

/-- `ESC_ENC_BYTE` as the whole state it leaves (R140). -/
theorem exec_escEncByte_eq_after (d : Byte) (s : State) :
    exec (.escEncByte d) s = .next (s.after s.crcAcc s.escPend 0#4 (Response.ofOut (escByte d))) := rfl

/-- `ESC_ENC_BLOCK` answers with the escape of `SRC`, checked against `CAP` (R141). -/
theorem exec_escEncBlock_eq_answer (s : State) :
    exec .escEncBlock s =
      .next (s.answer (s.readSrc.bind fun src => fitCap s.operands.cap (escSeq src)) Response.ofOut) := rfl

/-- `ESC_DEC_RESET` as the whole state it leaves (R145). -/
theorem exec_escDecReset_eq_after (s : State) :
    exec .escDecReset s = .next (s.after s.crcAcc 0#1 0#4 Response.done) := rfl

/-- `ESC_DEC_BYTE` with nothing pending, as the whole state it leaves (R146). -/
theorem exec_escDecByte_of_not_pending {s : State} (h : s.escPend = 0#1) (d : Byte) :
    exec (.escDecByte d) s = .next (
      if d = esc then s.after s.crcAcc 1#1 0#4 Response.done
      else if d = delim then s.after s.crcAcc 0#1 4#4 (Response.error .escape)
      else s.after s.crcAcc 0#1 0#4 (Response.ofOut [d])) := by
  simp only [exec, execEscDecByte, if_pos h]
  split_ifs
  · rfl
  · rw [State.raise_eq_after, h]
    rfl
  · rw [State.complete_eq_after, h]
    rfl

/-- `ESC_DEC_BYTE` with a `0xDB` pending, as the whole state it leaves: `ESC_PEND` is 0 in every case (R146). -/
theorem exec_escDecByte_of_pending {s : State} (h : s.escPend = 1#1) (d : Byte) :
    exec (.escDecByte d) s = .next (
      if d = escEnd then s.after s.crcAcc 0#1 0#4 (Response.ofOut [delim])
      else if d = escEsc then s.after s.crcAcc 0#1 0#4 (Response.ofOut [esc])
      else s.after s.crcAcc 0#1 4#4 (Response.error .escape)) := by
  have hpend : ¬ s.escPend = 0#1 := by simp [h]
  simp only [exec, execEscDecByte, if_neg hpend]
  split_ifs <;> rfl

/-- `ESC_DEC_FLUSH` with nothing pending, as the whole state it leaves (R147). -/
theorem exec_escDecFlush_of_not_pending {s : State} (h : s.escPend = 0#1) :
    exec .escDecFlush s = .next (s.after s.crcAcc 0#1 0#4 Response.done) := by
  have hpend : ¬ s.escPend = 1#1 := by simp [h]
  simp only [exec, execEscDecFlush]
  rw [if_neg hpend, State.complete_eq_after, h]
  rfl

/-- `ESC_DEC_FLUSH` with a `0xDB` pending, as the whole state it leaves (R147). -/
theorem exec_escDecFlush_of_pending {s : State} (h : s.escPend = 1#1) :
    exec .escDecFlush s = .next (s.after s.crcAcc 0#1 4#4 (Response.error .escape)) := by
  simp only [exec, execEscDecFlush, if_pos h]
  rfl

/-- `ESC_DEC_BLOCK` answers with `SRC` unescaped and then checked against `CAP` (R148). -/
theorem exec_escDecBlock_eq_answer (s : State) :
    exec .escDecBlock s =
      .next (s.answer (s.readSrc.bind fun src => (unescSeq src).bind (fitCap s.operands.cap)) Response.ofOut) := rfl

/-- `FRAME_ENCODE` answers with the frame of `TBL` (42_frame.md R180). -/
theorem exec_frameEncode_eq_answer (s : State) :
    exec .frameEncode s = .next (s.answer (frameEncode s.operands.tbl s.operands.cap) Response.ofOut) := rfl

/-- `FRAME_DECODE` answers with the table of the frame in `SRC` (42_frame.md R181). -/
theorem exec_frameDecode_eq_answer (s : State) :
    exec .frameDecode s = .next (s.answer (s.readSrc.bind frameDecode) Response.ofTbl) := rfl

/-- `readSrc` reads the operand bundle and `MAX_SRC` alone (R8, 30_encoding.md R71). -/
theorem State.readSrc_congr {s₁ s₂ : State} (hops : s₁.operands = s₂.operands) (hmax : s₁.maxSrc = s₂.maxSrc) :
    s₁.readSrc = s₂.readSrc := by
  simp only [State.readSrc, hops, hmax]

/-- A command that answers the same result in two states returns the same response in both, and writes `STATUS` and no other
register. -/
theorem same_response_of_answer {α : Type} {i : Instr} {s₁ s₂ : State} {res : Except Status α} {f : α → Response}
    (h₁ : exec i s₁ = .next (s₁.answer res f)) (h₂ : exec i s₂ = .next (s₂.answer res f)) :
    ∃ r, exec i s₁ = .next (s₁.after s₁.crcAcc s₁.escPend r.status.code r) ∧
      exec i s₂ = .next (s₂.after s₂.crcAcc s₂.escPend r.status.code r) := by
  cases res with
  | ok x => exact ⟨f x, h₁, h₂⟩
  | error e => exact ⟨Response.error e, h₁, h₂⟩

/-- Settles O20: `escSeq_length` turns the statement's capacity test into that of `fitCap`. -/
theorem escEncBlockResult : Obligations.EscEncBlockResult := by
  unfold Obligations.EscEncBlockResult
  refine ⟨by decide, rejectsData_of_not_cwD (by decide), fun s hlong => ?_, fun s hfit => ?_⟩
  · rw [exec_escEncBlock_eq_answer, State.answer_readSrc_of_not_srcFits hlong]
    rfl
  · rw [exec_escEncBlock_eq_answer, State.answer_readSrc_of_srcFits hfit, State.answer_fitCap, escSeq_length]
    rfl

/-- Settles O25: `SRC` against `MAX_SRC`, then the answer of `unescSeq`, then its length against `CAP`. -/
theorem escDecBlockResult : Obligations.EscDecBlockResult := by
  unfold Obligations.EscDecBlockResult
  refine ⟨by decide, rejectsData_of_not_cwD (by decide), fun s hlong => ?_, fun s hfit hbad => ?_, fun s v hfit hv => ?_⟩
  · rw [exec_escDecBlock_eq_answer, State.answer_readSrc_of_not_srcFits hlong]
    rfl
  · rw [exec_escDecBlock_eq_answer, State.answer_readSrc_of_srcFits hfit, hbad]
    rfl
  · rw [exec_escDecBlock_eq_answer, State.answer_readSrc_of_srcFits hfit, hv]
    exact congrArg Host.Outcome.next (s.answer_fitCap s.operands.cap v)

/-- Settles O49: the result each of these commands answers is a function of the operands and `MAX_SRC`, so both states answer the
same one (`same_response_of_answer`). -/
theorem pureCommandsUseOperandsOnly : Obligations.PureCommandsUseOperandsOnly := by
  unfold Obligations.PureCommandsUseOperandsOnly
  intro i hi s₁ s₂ hops hmax
  have hsrc := State.readSrc_congr hops hmax
  rcases hi with rfl | ⟨d, rfl⟩ | rfl | rfl | rfl
  case inl =>
    exact same_response_of_answer (exec_escEncBlock_eq_answer s₁) (by rw [exec_escEncBlock_eq_answer, hsrc, hops])
  case inr.inl =>
    exact ⟨Response.ofOut (escByte d), exec_escEncByte_eq_after d s₁, exec_escEncByte_eq_after d s₂⟩
  case inr.inr.inl =>
    exact same_response_of_answer (exec_escDecBlock_eq_answer s₁) (by rw [exec_escDecBlock_eq_answer, hsrc, hops])
  case inr.inr.inr.inl =>
    exact same_response_of_answer (exec_frameEncode_eq_answer s₁) (by rw [exec_frameEncode_eq_answer, hops])
  case inr.inr.inr.inr =>
    exact same_response_of_answer (exec_frameDecode_eq_answer s₁) (by rw [exec_frameDecode_eq_answer, hsrc])

/-- Settles O18: the list in the statement is `escByte d` written out. -/
theorem escEncByteResult : Obligations.EscEncByteResult := by
  unfold Obligations.EscEncByteResult
  exact fun d => ⟨rfl, exec_escEncByte_eq_after d⟩

/-- Settles O21: the word by evaluation, the rejection because 0x18 is a `CW-N` opcode, the effect by `exec_escDecReset_eq_after`. -/
theorem escDecResetResult : Obligations.EscDecResetResult := by
  unfold Obligations.EscDecResetResult
  exact ⟨by decide, rejectsData_of_not_cwD (by decide), exec_escDecReset_eq_after⟩

/-- Settles O22: one lemma for each value of `ESC_PEND`. -/
theorem escDecByteResult : Obligations.EscDecByteResult := by
  unfold Obligations.EscDecByteResult
  exact fun d => ⟨rfl, fun _ h => exec_escDecByte_of_not_pending h d, fun _ h => exec_escDecByte_of_pending h d⟩

/-- Settles O23: one lemma for each value of `ESC_PEND`. -/
theorem escDecFlushResult : Obligations.EscDecFlushResult := by
  unfold Obligations.EscDecFlushResult
  exact ⟨by decide, rejectsData_of_not_cwD (by decide), fun _ h => exec_escDecFlush_of_not_pending h,
    fun _ h => exec_escDecFlush_of_pending h⟩

/-- Settles O24: the model's equations of `unescSeq`, one for each case of R132's loop. -/
theorem unescapeCases : Obligations.UnescapeCases := by
  unfold Obligations.UnescapeCases
  exact ⟨unescSeq_nil, unescSeq_delim, unescSeq_trailing, unescSeq_escEnd, unescSeq_escEsc, unescSeq_bad, unescSeq_plain⟩

end Sys2Proof.Machine
end

section
/-!
PROOF. The two frame commands (42_frame.md R160, R171, R172, R180, R181): unescape as the inverse of escape (41_escape.md R132, R134),
which sequences stand between two delimiters, and each command as the whole state it leaves.
-/
namespace Sys2Proof.Machine

/-- Unescape takes back the escape of the byte in front (R130, R132). -/
theorem unescSeq_escByte_append (b : Byte) (w : List Byte) : unescSeq (escByte b ++ w) = (unescSeq w).map (b :: ·) := by
  unfold escByte
  split_ifs with hdelim hesc
  · rw [hdelim]
    exact unescSeq_escEnd w
  · rw [hesc]
    exact unescSeq_escEsc w
  · exact unescSeq_plain b w hdelim hesc

/-- Every sequence comes back from its escape (R134). -/
theorem unescSeq_escSeq (v : List Byte) : unescSeq (escSeq v) = .ok v := by
  induction v with
  | nil => rfl
  | cons b v ih =>
    rw [escSeq_cons, unescSeq_escByte_append, ih]
    rfl

/-- A mapped answer is a value exactly when the answer is one that maps to it. -/
theorem map_eq_ok_iff {α β : Type} (f : α → β) (r : Except Status α) (y : β) :
    r.map f = .ok y ↔ ∃ x, r = .ok x ∧ f x = y := by
  cases r <;> simp [Except.map]

/-- What unescape accepts is the escape of what it answers (R134). -/
theorem escSeq_of_unescSeq {w v : List Byte} (h : unescSeq w = .ok v) : escSeq v = w := by
  fun_induction unescSeq w generalizing v with
  | case1 =>
    cases h
    rfl
  | case2 | case3 | case6 => cases h
  | case4 rest _ ih | case5 rest _ _ ih =>
    obtain ⟨x, hx, rfl⟩ := (map_eq_ok_iff _ _ _).1 h
    rw [escSeq_cons, ih hx]
    rfl
  | case7 b rest hdelim hesc ih =>
    obtain ⟨x, hx, rfl⟩ := (map_eq_ok_iff _ _ _).1 h
    rw [escSeq_cons, ih hx, escByte, if_neg hdelim, if_neg hesc]
    rfl

/-- Unescape rejects, with its one error, what is the escape of nothing (R132). -/
theorem unescSeq_of_not_escaped {w : List Byte} (h : ∀ v, escSeq v ≠ w) : unescSeq w = .error .escape := by
  cases hw : unescSeq w with
  | ok v => exact absurd (escSeq_of_unescSeq hw) (h v)
  | error e => rw [unescSeq_error w e hw]

/-- A sequence of two or more bytes has a first byte, a last byte and an interior (R171). -/
theorem exists_interior {w : List Byte} (h : 2 ≤ w.length) : ∃ a m b, w = [a] ++ m ++ [b] := by
  obtain ⟨a, tail, rfl⟩ := List.exists_cons_of_length_pos (show 0 < w.length by omega)
  have htail : tail ≠ [] := by
    rintro rfl
    simp at h
  exact ⟨a, tail.dropLast, tail.getLast htail, by simp [List.dropLast_append_getLast htail]⟩

/-- Frame decode answers `FORMAT` for what is not two delimiters with an interior between them (R171, step 1). -/
theorem frameDecode_of_not_enclosed {w : List Byte} (h : ∀ m, w ≠ [delim] ++ m ++ [delim]) :
    frameDecode w = .error .format := by
  unfold frameDecode
  split_ifs with hlen hfirst hlast
  · rfl
  · rfl
  · rfl
  · obtain ⟨a, m, b, rfl⟩ := exists_interior (Nat.not_lt.1 hlen)
    obtain rfl : a = delim := by simpa [byteAt] using hfirst
    obtain rfl : b = delim := by simpa [byteAt] using hlast
    exact absurd rfl (h m)

/-- The length of a frame: two delimiters around the escaped sequence (R160, R164). -/
theorem enclose_length (u : List Byte) : (enclose u).length = 2 + u.length + countSpecial u := by
  simp [enclose, escSeq_length]
  omega

/-- The length of the frame of a table (R164, 30_encoding.md R100). -/
theorem enclose_unescaped_length (t : DataTable) :
    (enclose (unescaped t)).length = 24 + t.content.length + countSpecial (unescaped t) := by
  rw [enclose_length, unescaped, withCrc_length, ser_length]
  omega

/-- `FRAME_ENCODE` of more than 1500 content bytes, as the whole state it leaves (R160, R180). -/
theorem exec_frameEncode_of_content_long {s : State} (h : 1500 < s.operands.tbl.content.length) :
    exec .frameEncode s = .next (s.after s.crcAcc s.escPend 1#4 (Response.error .invalidParam)) := by
  rw [exec_frameEncode_eq_answer, frameEncode_eq, if_pos h]
  rfl

/-- `FRAME_ENCODE` of at most 1500 content bytes, as the whole state it leaves (R160, R180). -/
theorem exec_frameEncode_of_content_fits {s : State} (h : ¬ 1500 < s.operands.tbl.content.length) :
    exec .frameEncode s = .next (
      if (enclose (unescaped s.operands.tbl)).length ≤ s.operands.cap then
        s.after s.crcAcc s.escPend 0#4 (Response.ofOut (enclose (unescaped s.operands.tbl)))
      else s.after s.crcAcc s.escPend 2#4 (Response.error .bufferSmall)) := by
  rw [exec_frameEncode_eq_answer, frameEncode_eq, if_neg h]
  exact congrArg Host.Outcome.next (s.answer_fitCap _ _)

/-- `FRAME_DECODE` of a `SRC` above `MAX_SRC`, as the whole state it leaves (R181). -/
theorem exec_frameDecode_of_not_srcFits {s : State} (h : ¬ s.SrcFits) :
    exec .frameDecode s = .next (s.after s.crcAcc s.escPend 1#4 (Response.error .invalidParam)) := by
  rw [exec_frameDecode_eq_answer, State.answer_readSrc_of_not_srcFits h]

/-- `FRAME_DECODE` of a `SRC` within `MAX_SRC` answers with the table of the frame in it (R181). -/
theorem exec_frameDecode_of_srcFits {s : State} (h : s.SrcFits) :
    exec .frameDecode s = .next (s.answer (frameDecode s.operands.src) Response.ofTbl) := by
  rw [exec_frameDecode_eq_answer, State.answer_readSrc_of_srcFits h]

/-- `FRAME_DECODE` of a `SRC` that stands between two delimiters: its interior is unescaped, and steps 3 to 5 follow (R171, R181). -/
theorem exec_frameDecode_of_enclosed {s : State} {m : List Byte} (h : s.SrcFits)
    (hsrc : s.operands.src = [delim] ++ m ++ [delim]) :
    exec .frameDecode s = .next (s.answer ((unescSeq m).bind decodeUnescaped) Response.ofTbl) := by
  rw [exec_frameDecode_of_srcFits h, hsrc, frameDecode_enclosed]

/-- `answer` of steps 3 to 5 of frame decode, as the whole state it leaves (R171, R172). The steps cut the last two bytes off `u`
as `u[0 .. len(u) - 3]`, which is the same from 22 bytes on. -/
theorem State.answer_decodeUnescaped (s : State) (u : List Byte) :
    s.answer (decodeUnescaped u) Response.ofTbl =
      if u.length < 22 then s.after s.crcAcc s.escPend 5#4 (Response.error .incomplete)
      else if 2048 < u.length ∨ 1500 < u.length - 22 then s.after s.crcAcc s.escPend 7#4 (Response.error .oversize)
      else if crc16 (u.take (u.length - 2)) ≠ le16 (u.getD (u.length - 2) 0#8) (u.getD (u.length - 1) 0#8) then
        s.after s.crcAcc s.escPend 6#4 (Response.error .crc)
      else s.after s.crcAcc s.escPend 0#4 (Response.ofTbl (parse (u.take (u.length - 2)))) := by
  rw [decodeUnescaped_eq]
  by_cases hshort : u.length < 22
  · rw [if_pos hshort, if_pos hshort]
    rfl
  · have hcut : u.length - 3 + 1 = u.length - 2 := by omega
    rw [hcut]
    split_ifs <;> rfl

/-- Settles O32: the content length first, then the frame's length (`enclose_unescaped_length`) against `CAP`. -/
theorem frameEncodeResult : Obligations.FrameEncodeResult := by
  unfold Obligations.FrameEncodeResult
  refine ⟨by decide, rejectsData_of_not_cwD (by decide), fun _ => rfl, fun s => ?_⟩
  by_cases hlong : 1500 < s.operands.tbl.content.length
  · rw [if_pos hlong]
    exact exec_frameEncode_of_content_long hlong
  · rw [if_neg hlong, exec_frameEncode_of_content_fits hlong, enclose_unescaped_length]
    rfl

/-- Settles O34: `SRC` against `MAX_SRC`, then its delimiters, then its escapes, and for an escaped interior the steps on `u`
(`State.answer_decodeUnescaped`). -/
theorem frameDecodeResult : Obligations.FrameDecodeResult := by
  unfold Obligations.FrameDecodeResult
  refine ⟨by decide, rejectsData_of_not_cwD (by decide), fun s hlong => exec_frameDecode_of_not_srcFits hlong,
    fun s hfit hformat => ?_, fun s m hfit hsrc hescape => ?_, fun s u hfit hsrc => ?_⟩
  · rw [exec_frameDecode_of_srcFits hfit, frameDecode_of_not_enclosed hformat]
    rfl
  · rw [exec_frameDecode_of_enclosed hfit hsrc, unescSeq_of_not_escaped hescape]
    rfl
  · rw [exec_frameDecode_of_enclosed hfit hsrc, unescSeq_escSeq]
    exact congrArg Host.Outcome.next (s.answer_decodeUnescaped u)

end Sys2Proof.Machine
end

section
/-!
PROOF. The two control commands (43_control.md R200, R201): their words, the rejection of a non-zero `DATA` byte, and the whole state
each leaves.
-/
namespace Sys2Proof.Machine

/-- The value `STAT_READ` returns is the number in `STATUS` as a 16-bit word: its zero extension (R201). -/
theorem statusValue_eq_ofNat (c : BitVec 4) : statusValue c = BitVec.ofNat 16 c.toNat :=
  (BitVec.ofNat_toNat 16 c).symm

/-- Settles O41: the word by evaluation, the rejection because 0xFF is a `CW-N` opcode, the effect by `exec_softReset_eq_after`. -/
theorem softResetResult : Obligations.SoftResetResult := by
  unfold Obligations.SoftResetResult
  exact ⟨by decide, rejectsData_of_not_cwD (by decide), exec_softReset_eq_after⟩

/-- Settles O42: as O41, with the zero extension of `STATUS` written as in the statement (`statusValue_eq_ofNat`). -/
theorem statReadResult : Obligations.StatReadResult := by
  unfold Obligations.StatReadResult
  refine ⟨by decide, rejectsData_of_not_cwD (by decide), fun s => ?_⟩
  rw [exec_statRead_eq_after, statusValue_eq_ofNat]
  rfl

end Sys2Proof.Machine
end

section
/-!
PROOF. 60_exceptions.md: an idle block keeps its state (R227), and what a transaction that ends in an error leaves (R210, R213): once for
every command whether it completes or raises, then for every word on the port, a rejected one included.
-/
namespace Sys2Proof.Machine

/-- With nothing on the port a step changes nothing (10_state.md R30, R227). -/
theorem step_of_idle {s : State} (h : s.script = []) : step s = .next s := by
  simp only [step, fetch, h]

/-- Settles O8, by induction on the number of steps: each is `step_of_idle`. -/
theorem idleKeepsRegisters : Obligations.IdleKeepsRegisters := by
  unfold Obligations.IdleKeepsRegisters
  intro k s h
  induction k with
  | zero => exact run_zero s
  | succ k ih => rw [run_succ (step_of_idle h), ih]

/-- `ESC_PEND` after an error, by what decode makes of the word: `ESC_DEC_BYTE` and `ESC_DEC_FLUSH` leave 0, every other command and a
rejected word leave it as it was (R213). -/
def pendAfterRaise (d : Except DecodeError Instr) (p : BitVec 1) : BitVec 1 :=
  match d with
  | .ok (.escDecByte _) => 0#1
  | .ok .escDecFlush => 0#1
  | _ => p

@[simp] theorem pendAfterRaise_escDecByte (d : Byte) (p : BitVec 1) : pendAfterRaise (.ok (.escDecByte d)) p = 0#1 := rfl
@[simp] theorem pendAfterRaise_escDecFlush (p : BitVec 1) : pendAfterRaise (.ok .escDecFlush) p = 0#1 := rfl

/-- No other word changes `ESC_PEND` when it ends in an error. -/
theorem pendAfterRaise_of_other {d : Except DecodeError Instr} (hflush : d ≠ .ok .escDecFlush)
    (hbyte : ∀ b, d ≠ .ok (.escDecByte b)) (p : BitVec 1) : pendAfterRaise d p = p := by
  unfold pendAfterRaise
  split
  · exact absurd rfl (hbyte _)
  · exact absurd rfl hflush
  · rfl

/-- The transaction on the port ends with `t`, in a response whose status is `OK`. -/
def State.Completes (s t : State) : Prop :=
  ∃ c p q r, t = s.after c p q r ∧ r.status = .ok

/-- The transaction on the port ends with `t`, in an error: no data, `STATUS` its code, `CRC_ACC` kept, and `p` in `ESC_PEND` (R213). -/
def State.Raises (s : State) (p : BitVec 1) (t : State) : Prop :=
  ∃ e, t = s.after s.crcAcc p e.code (Response.error e)

/-- A state after one response completes when that response's status is `OK`. -/
theorem State.completes_after (s : State) (c : Word16) (p : BitVec 1) (q : BitVec 4) {r : Response} (h : r.status = .ok) :
    s.Completes (s.after c p q r) := ⟨c, p, q, r, rfl, h⟩

/-- `raise` after a write of `ESC_PEND`. -/
theorem State.raises_after (s : State) (p : BitVec 1) (e : Status) :
    s.Raises p (s.after s.crcAcc p e.code (Response.error e)) := ⟨e, rfl⟩

/-- `answer` completes with a value's response or raises the error, and leaves `ESC_PEND` as it was. -/
theorem State.answer_completes_or_raises {α : Type} (s : State) (res : Except Status α) {f : α → Response}
    (hf : ∀ x, (f x).status = .ok) : s.Completes (s.answer res f) ∨ s.Raises s.escPend (s.answer res f) := by
  rcases s.answer_cases res f with ⟨x, -, h⟩ | ⟨e, -, h⟩ <;> rw [h]
  · exact .inl (s.completes_after _ _ _ (hf x))
  · exact .inr (s.raises_after _ e)

/-- `ESC_DEC_BYTE` completes, or raises with 0 in `ESC_PEND` (41_escape.md R146). -/
theorem exec_escDecByte_completes_or_raises (d : Byte) (s : State) :
    ∃ t, exec (.escDecByte d) s = .next t ∧ (s.Completes t ∨ s.Raises 0#1 t) := by
  rcases escPend_cases s.escPend with h | h
  · refine ⟨_, exec_escDecByte_of_not_pending h d, ?_⟩
    split_ifs
    · exact .inl (s.completes_after _ _ _ rfl)
    · exact .inr (s.raises_after _ .escape)
    · exact .inl (s.completes_after _ _ _ rfl)
  · refine ⟨_, exec_escDecByte_of_pending h d, ?_⟩
    split_ifs
    · exact .inl (s.completes_after _ _ _ rfl)
    · exact .inl (s.completes_after _ _ _ rfl)
    · exact .inr (s.raises_after _ .escape)

/-- `ESC_DEC_FLUSH` completes with nothing pending, and raises with 0 in `ESC_PEND` otherwise (41_escape.md R147). -/
theorem exec_escDecFlush_completes_or_raises (s : State) :
    ∃ t, exec .escDecFlush s = .next t ∧ (s.Completes t ∨ s.Raises 0#1 t) := by
  rcases escPend_cases s.escPend with h | h
  · exact ⟨_, exec_escDecFlush_of_not_pending h, .inl (s.completes_after _ _ _ rfl)⟩
  · exact ⟨_, exec_escDecFlush_of_pending h, .inr (s.raises_after _ .escape)⟩

/-- Every command completes or raises, and a raise leaves only `STATUS` written and `pendAfterRaise` in `ESC_PEND` (R213). -/
theorem exec_completes_or_raises (i : Instr) (s : State) :
    ∃ t, exec i s = .next t ∧ (s.Completes t ∨ s.Raises (pendAfterRaise (.ok i) s.escPend) t) := by
  cases i with
  | crcInit => exact ⟨_, exec_crcInit_eq_after s, .inl (s.completes_after _ _ _ rfl)⟩
  | crcUpdate d => exact ⟨_, exec_crcUpdate_eq_after d s, .inl (s.completes_after _ _ _ rfl)⟩
  | crcRead => exact ⟨_, exec_crcRead_eq_after s, .inl (s.completes_after _ _ _ rfl)⟩
  | crcBlock =>
    by_cases hfit : s.SrcFits
    · exact ⟨_, exec_crcBlock_of_srcFits hfit, .inl (s.completes_after _ _ _ rfl)⟩
    · exact ⟨_, exec_crcBlock_of_not_srcFits hfit, .inr (s.raises_after _ .invalidParam)⟩
  | escEncByte d => exact ⟨_, exec_escEncByte_eq_after d s, .inl (s.completes_after _ _ _ rfl)⟩
  | escEncBlock => exact ⟨_, exec_escEncBlock_eq_answer s, s.answer_completes_or_raises _ Response.ofOut_status⟩
  | escDecReset => exact ⟨_, exec_escDecReset_eq_after s, .inl (s.completes_after _ _ _ rfl)⟩
  | escDecByte d => exact exec_escDecByte_completes_or_raises d s
  | escDecFlush => exact exec_escDecFlush_completes_or_raises s
  | escDecBlock => exact ⟨_, exec_escDecBlock_eq_answer s, s.answer_completes_or_raises _ Response.ofOut_status⟩
  | frameEncode => exact ⟨_, exec_frameEncode_eq_answer s, s.answer_completes_or_raises _ Response.ofOut_status⟩
  | frameDecode => exact ⟨_, exec_frameDecode_eq_answer s, s.answer_completes_or_raises _ Response.ofTbl_status⟩
  | statRead => exact ⟨_, exec_statRead_eq_after s, .inl (s.completes_after _ _ _ rfl)⟩
  | softReset => exact ⟨_, exec_softReset_eq_after s, .inl (s.completes_after _ _ _ rfl)⟩

/-- Every transaction completes or raises; a rejected word raises `ILLEGAL_CMD` (R213, R216). -/
theorem step_completes_or_raises {s : State} {tr : Transaction} {rest : List HostEvent} (h : s.script = .command tr :: rest) :
    ∃ t, step s = .next t ∧ (s.Completes t ∨ s.Raises (pendAfterRaise (decode tr.cw) s.escPend) t) := by
  cases hd : decode tr.cw with
  | error e => exact ⟨_, step_of_rejected h hd, .inr (s.raises_after _ .illegalCmd)⟩
  | ok i =>
    rw [step_of_command h hd]
    exact exec_completes_or_raises i s

/-- The one response a transaction adds is determined by the responses after it. -/
theorem State.after_response_eq {s : State} {c : Word16} {p : BitVec 1} {q : BitVec 4} {r r' : Response}
    (h : (s.after c p q r).responses = s.responses ++ [r']) : r = r' := by
  simpa using h

/-- A step whose response is an error raised it: the whole state it leaves (R213). -/
theorem step_of_error_response {s t : State} {tr : Transaction} {rest : List HostEvent} {r : Response}
    (h : s.script = .command tr :: rest) (hstep : step s = .next t) (hresp : t.responses = s.responses ++ [r])
    (herr : r.status ≠ .ok) :
    ∃ e, r = Response.error e ∧
      t = s.after s.crcAcc (pendAfterRaise (decode tr.cw) s.escPend) e.code (Response.error e) := by
  obtain ⟨u, hu, hcases⟩ := step_completes_or_raises h
  obtain rfl : u = t := Host.Outcome.next.inj (hu.symm.trans hstep)
  rcases hcases with ⟨c, p, q, r', rfl, hok⟩ | ⟨e, rfl⟩
  · rw [State.after_response_eq hresp] at hok
    exact absurd hok herr
  · exact ⟨e, (State.after_response_eq hresp).symm, rfl⟩

/-- Settles O47: the state after the error (`step_of_error_response`), read field by field. -/
theorem raisingWritesOnlyStatus : Obligations.RaisingWritesOnlyStatus := by
  unfold Obligations.RaisingWritesOnlyStatus
  intro s t tr rest r h hstep hresp herr
  obtain ⟨e, rfl, rfl⟩ := step_of_error_response h hstep hresp herr
  refine ⟨rfl, rfl, rfl, rfl, rfl, fun hpend => ?_, fun hflush hbyte => pendAfterRaise_of_other hflush hbyte _⟩
  rcases hpend with hd | ⟨d, hd⟩
  · rw [hd, State.after_escPend, pendAfterRaise_escDecFlush]
  · rw [hd, State.after_escPend, pendAfterRaise_escDecByte]

end Sys2Proof.Machine
end

section
/-!
PROOF. 70_reset_and_hazards.md R240: after power-on reset any command is accepted as the first. A command's own word decodes to the
command, and no command ends in `ILLEGAL_CMD`: that status is for words decode rejects (60_exceptions.md R216).
-/
namespace Sys2Proof

/-- The word of a command decodes to that command (30_encoding.md R73, R75). -/
theorem decode_encode (i : Instr) : decode (encode i) = .ok i := by
  cases i with
  | crcUpdate d | escEncByte d | escDecByte d =>
    simp only [decode, encode, cwOpc_cwOf, cwData_cwOf]
    rfl
  | crcInit | crcRead | crcBlock | escEncBlock | escDecReset | escDecFlush | escDecBlock | frameEncode | frameDecode
  | statRead | softReset => rfl

end Sys2Proof

namespace Sys2Proof.Machine

/-- One computation after another ends in an error only if one of the two does. -/
theorem bind_ne_error {α β : Type} {res : Except Status α} {g : α → Except Status β} {e : Status} (hres : res ≠ .error e)
    (hg : ∀ x, g x ≠ .error e) : res.bind g ≠ .error e := by
  cases res with
  | ok x => exact hg x
  | error e' => exact fun h => hres (congrArg Except.error (Except.error.inj h))

/-- The check of `SRC` raises `INVALID_PARAM` only (R8). -/
theorem State.readSrc_ne_illegalCmd (s : State) : s.readSrc ≠ .error .illegalCmd := by
  rcases s.readSrc_cases with ⟨-, h⟩ | ⟨-, h⟩ <;> simp [h]

/-- The check against `CAP` raises `BUFFER_SMALL` only (R141). -/
theorem fitCap_ne_illegalCmd (cap : Nat) (w : List Byte) : fitCap cap w ≠ .error .illegalCmd := by
  rcases fitCap_cases cap w with ⟨-, h⟩ | ⟨-, h⟩ <;> simp [h]

/-- Unescape raises `ESCAPE` only (R132). -/
theorem unescSeq_ne_illegalCmd (w : List Byte) : unescSeq w ≠ .error .illegalCmd :=
  fun h => absurd (unescSeq_error w _ h) (by decide)

/-- `ILLEGAL_CMD` is none of the errors of frame encode (R160). -/
theorem frameEncode_ne_illegalCmd (t : DataTable) (cap : Nat) : frameEncode t cap ≠ .error .illegalCmd :=
  fun h => absurd (frameEncode_error h) (by decide)

/-- `ILLEGAL_CMD` is none of the errors of frame decode (R171). -/
theorem frameDecode_ne_illegalCmd (w : List Byte) : frameDecode w ≠ .error .illegalCmd :=
  fun h => absurd (frameDecode_error h) (by decide)

/-- The block accepts the transaction on the port and ends it with `t`: one response, whose status is not `ILLEGAL_CMD`. -/
def State.Accepts (s t : State) : Prop :=
  ∃ c p q r, t = s.after c p q r ∧ r.status ≠ .illegalCmd

/-- A transaction that completes was accepted. -/
theorem State.Completes.accepts {s t : State} (h : s.Completes t) : s.Accepts t := by
  obtain ⟨c, p, q, r, ht, hok⟩ := h
  exact ⟨c, p, q, r, ht, by simp [hok]⟩

/-- A state after one response accepts when that response's status is not `ILLEGAL_CMD`. -/
theorem State.accepts_after (s : State) (c : Word16) (p : BitVec 1) (q : BitVec 4) {r : Response}
    (h : r.status ≠ .illegalCmd) : s.Accepts (s.after c p q r) := ⟨c, p, q, r, rfl, h⟩

/-- `answer` of a result other than the error `ILLEGAL_CMD` accepts. -/
theorem State.accepts_answer {α : Type} (s : State) {res : Except Status α} {f : α → Response}
    (hres : res ≠ .error .illegalCmd) (hf : ∀ x, (f x).status = .ok) : s.Accepts (s.answer res f) := by
  cases res with
  | ok x => exact (s.completes_after _ _ _ (hf x)).accepts
  | error e => exact s.accepts_after _ _ _ fun he => hres (congrArg Except.error he)

/-- `ESC_DEC_BYTE` is accepted, whatever is pending (41_escape.md R146). -/
theorem exec_escDecByte_accepts (d : Byte) (s : State) : ∃ t, exec (.escDecByte d) s = .next t ∧ s.Accepts t := by
  rcases escPend_cases s.escPend with h | h
  · refine ⟨_, exec_escDecByte_of_not_pending h d, ?_⟩
    split_ifs <;> exact s.accepts_after _ _ _ (by simp)
  · refine ⟨_, exec_escDecByte_of_pending h d, ?_⟩
    split_ifs <;> exact s.accepts_after _ _ _ (by simp)

/-- `ESC_DEC_FLUSH` is accepted, whatever is pending (41_escape.md R147). -/
theorem exec_escDecFlush_accepts (s : State) : ∃ t, exec .escDecFlush s = .next t ∧ s.Accepts t := by
  rcases escPend_cases s.escPend with h | h
  · exact ⟨_, exec_escDecFlush_of_not_pending h, s.accepts_after _ _ _ (by simp)⟩
  · exact ⟨_, exec_escDecFlush_of_pending h, s.accepts_after _ _ _ (by simp)⟩

/-- Every command is accepted in every state: none ends in `ILLEGAL_CMD` (R216). -/
theorem exec_accepts (i : Instr) (s : State) : ∃ t, exec i s = .next t ∧ s.Accepts t := by
  cases i with
  | crcInit => exact ⟨_, exec_crcInit_eq_after s, s.accepts_after _ _ _ (by simp)⟩
  | crcUpdate d => exact ⟨_, exec_crcUpdate_eq_after d s, s.accepts_after _ _ _ (by simp)⟩
  | crcRead => exact ⟨_, exec_crcRead_eq_after s, s.accepts_after _ _ _ (by simp)⟩
  | crcBlock =>
    by_cases hfit : s.SrcFits
    · exact ⟨_, exec_crcBlock_of_srcFits hfit, s.accepts_after _ _ _ (by simp)⟩
    · exact ⟨_, exec_crcBlock_of_not_srcFits hfit, s.accepts_after _ _ _ (by simp)⟩
  | escEncByte d => exact ⟨_, exec_escEncByte_eq_after d s, s.accepts_after _ _ _ (by simp)⟩
  | escEncBlock =>
    exact ⟨_, exec_escEncBlock_eq_answer s,
      s.accepts_answer (bind_ne_error s.readSrc_ne_illegalCmd fun _ => fitCap_ne_illegalCmd _ _) Response.ofOut_status⟩
  | escDecReset => exact ⟨_, exec_escDecReset_eq_after s, s.accepts_after _ _ _ (by simp)⟩
  | escDecByte d => exact exec_escDecByte_accepts d s
  | escDecFlush => exact exec_escDecFlush_accepts s
  | escDecBlock =>
    have hunesc (src : List Byte) : (unescSeq src).bind (fitCap s.operands.cap) ≠ .error .illegalCmd :=
      bind_ne_error (unescSeq_ne_illegalCmd src) (fitCap_ne_illegalCmd _)
    exact ⟨_, exec_escDecBlock_eq_answer s,
      s.accepts_answer (bind_ne_error s.readSrc_ne_illegalCmd hunesc) Response.ofOut_status⟩
  | frameEncode =>
    exact ⟨_, exec_frameEncode_eq_answer s, s.accepts_answer (frameEncode_ne_illegalCmd _ _) Response.ofOut_status⟩
  | frameDecode =>
    exact ⟨_, exec_frameDecode_eq_answer s,
      s.accepts_answer (bind_ne_error s.readSrc_ne_illegalCmd frameDecode_ne_illegalCmd) Response.ofTbl_status⟩
  | statRead => exact ⟨_, exec_statRead_eq_after s, s.accepts_after _ _ _ (by simp)⟩
  | softReset => exact ⟨_, exec_softReset_eq_after s, s.accepts_after _ _ _ (by simp)⟩

/-- Settles O7: the reset values by evaluation, the step by `decode_encode`, the acceptance by `exec_accepts`. -/
theorem resetStateValues : Obligations.ResetStateValues := by
  unfold Obligations.ResetStateValues
  refine ⟨rfl, rfl, rfl, rfl, fun i ops => ⟨step_of_command rfl (decode_encode i), ?_⟩⟩
  obtain ⟨t, hexec, c, p, q, r, rfl, hr⟩ := exec_accepts i { State.reset with script := [.command (i.issue ops)] }
  exact ⟨_, r, hexec, rfl, hr, rfl⟩

end Sys2Proof.Machine
end

section
/-!
PROOF. 30_encoding.md Part 1: decode and encode are inverse (R73, R75), a step runs the command its word decodes to, with that
transaction's operands (R71), and the numbers of the status codes (R85). 70_reset_and_hazards.md R240 to R242: the step of a
power-on reset.
-/
namespace Sys2Proof.Machine

/-- Settles O2: `encode_of_decode` is one direction, `decode_encode` the other. -/
theorem decodeEncodeAgree : Obligations.DecodeEncodeAgree := by
  unfold Obligations.DecodeEncodeAgree
  refine fun w i => ⟨encode_of_decode, ?_⟩
  rintro rfl
  exact decode_encode i

/-- Settles O1: the fourteen words, evaluated. -/
theorem opcodeMapWords : Obligations.OpcodeMapWords := by
  unfold Obligations.OpcodeMapWords
  decide

/-- Settles O4: `step_of_command` for the step, `State.operands_of_command` for what it reads. -/
theorem stepRunsDecoded : Obligations.StepRunsDecoded := by
  unfold Obligations.StepRunsDecoded
  exact fun s t rest i h hd => ⟨step_of_command h hd, s.operands_of_command t rest h⟩

/-- Settles O5: a command's word is its own table word (`tableWord_toNat`), and it decodes to the command. -/
theorem placedWordRunsNext : Obligations.PlacedWordRunsNext := by
  unfold Obligations.PlacedWordRunsNext
  intro s i
  have hdec : decode (tableWord 16 (encode i).toNat) = .ok i := by rw [tableWord_toNat, decode_encode]
  refine ⟨?_, step_of_command (s.placeWord_script _) hdec⟩
  simp only [decodeTableWord, hdec]

/-- The code of a status identifies it (R85). -/
theorem Status.ofCode_code (e : Status) : Status.ofCode e.code = some e := by
  cases e <;> rfl

/-- The codes 9 to 15 belong to no status (R85): no status has a code above 8. -/
theorem Status.ofCode_of_nine_le {c : BitVec 4} (h : 9 ≤ c.toNat) : Status.ofCode c = none := by
  refine List.find?_eq_none.2 fun e _ he => ?_
  have hcode : e.code = c := by simpa using he
  have hle := e.code_le
  rw [hcode] at hle
  omega

/-- Settles O6: the nine numbers by evaluation, then `Status.ofCode` on and off the codes. -/
theorem statusCodeNumbers : Obligations.StatusCodeNumbers := by
  unfold Obligations.StatusCodeNumbers
  exact ⟨rfl, rfl, rfl, rfl, rfl, rfl, rfl, rfl, rfl, Status.ofCode_code, fun _ => Status.ofCode_of_nine_le⟩

/-- Settles O9: the state that `State.powerOn` leaves, with the event removed from the script. -/
theorem powerOnResetEvent : Obligations.PowerOnResetEvent := by
  unfold Obligations.PowerOnResetEvent
  intro s outstanding rest h
  rw [step_of_powerOnReset h]
  exact congrArg Host.Outcome.next (State.ext_fields _ _ rfl rfl rfl rfl (by simp [h]) rfl)

end Sys2Proof.Machine
end

section
/-!
PROOF. The escape transform as a code (41_escape.md R131, R133, R134): its length, which bytes stand in an escaped sequence, and
escape and unescape as inverses.
-/
namespace Sys2Proof.Machine

/-- The escape of a byte, by what the byte is (R130). -/
theorem escByte_cases (b : Byte) :
    (b = delim ∧ escByte b = [esc, escEnd]) ∨ (b = esc ∧ escByte b = [esc, escEsc]) ∨
      (b ≠ delim ∧ b ≠ esc ∧ escByte b = [b]) := by
  by_cases hdelim : b = delim
  · exact .inl ⟨hdelim, by rw [escByte, if_pos hdelim]⟩
  · by_cases hesc : b = esc
    · exact .inr (.inl ⟨hesc, by rw [escByte, if_neg hdelim, if_pos hesc]⟩)
    · exact .inr (.inr ⟨hdelim, hesc, by rw [escByte, if_neg hdelim, if_neg hesc]⟩)

/-- The escape of a byte holds no delimiter (R130). -/
theorem delim_not_mem_escByte (b : Byte) : delim ∉ escByte b := by
  rcases escByte_cases b with ⟨-, h⟩ | ⟨-, h⟩ | ⟨hdelim, -, h⟩ <;> rw [h]
  · decide
  · decide
  · simpa using hdelim.symm

/-- No escaped sequence holds a delimiter (R133). -/
theorem delim_not_mem_escSeq (bs : List Byte) : delim ∉ escSeq bs := by
  simp [escSeq, delim_not_mem_escByte]

/-- Every `0xDB` of an escaped sequence is followed by `0xDC` or `0xDD` (R133): it is the first byte of an escape. -/
theorem escSeq_after_esc (bs : List Byte) (i : Nat) (h : (escSeq bs)[i]? = some esc) :
    (escSeq bs)[i + 1]? = some escEnd ∨ (escSeq bs)[i + 1]? = some escEsc := by
  induction bs generalizing i with
  | nil => simp at h
  | cons b bs ih =>
    rcases escByte_cases b with ⟨-, hb⟩ | ⟨-, hb⟩ | ⟨-, hesc, hb⟩ <;> rw [escSeq_cons, hb] at h ⊢
    · match i with
      | 0 => exact .inl rfl
      | 1 => exact absurd h (by simp; decide)
      | j + 2 => exact ih j h
    · match i with
      | 0 => exact .inr rfl
      | 1 => exact absurd h (by simp; decide)
      | j + 2 => exact ih j h
    · match i with
      | 0 => exact absurd (Option.some.inj h) hesc
      | j + 1 => exact ih j h

/-- At most every byte of a sequence is special. -/
theorem countSpecial_le_length (bs : List Byte) : countSpecial bs ≤ bs.length := List.countP_le_length

/-- An escaped sequence is at most twice as long (70_reset_and_hazards.md R247). -/
theorem escSeq_length_le (bs : List Byte) : (escSeq bs).length ≤ 2 * bs.length := by
  have hcount := countSpecial_le_length bs
  rw [escSeq_length]
  omega

/-- Settles O19: the concatenation is the definition, the length is `escSeq_length`. -/
theorem escapeSequenceLength : Obligations.EscapeSequenceLength := by
  unfold Obligations.EscapeSequenceLength
  exact fun bs => ⟨rfl, escSeq_length bs⟩

/-- Settles O26: `delim_not_mem_escSeq` and `escSeq_after_esc`. -/
theorem escapedHasNoDelimiter : Obligations.EscapedHasNoDelimiter := by
  unfold Obligations.EscapedHasNoDelimiter
  exact fun bs => ⟨delim_not_mem_escSeq bs, escSeq_after_esc bs⟩

/-- Settles O27: each clause is one of the three laws that `FRAME_DECODE` rests on. -/
theorem unescapeInvertsEscape : Obligations.UnescapeInvertsEscape := by
  unfold Obligations.UnescapeInvertsEscape
  exact ⟨unescSeq_escSeq, fun _ _ => escSeq_of_unescSeq, fun _ => unescSeq_of_not_escaped⟩

end Sys2Proof.Machine
end

section
/-!
PROOF. The byte step of the CRC as a linear map (40_crc.md R110 to R113): the table form, the residue, and the CRCs of two sequences
that differ in one byte.
-/
namespace Sys2Proof.Machine

/-- The byte step is eight shifts of the accumulator with the byte xored in (R110). -/
theorem crcStep_eq_iterate (c : Word16) (d : Byte) : crcStep c d = crcShift^[8] (c ^^^ zext16 d) :=
  repeat_eq_iterate crcShift 8 _

/-- One shift of R110, as the part that is shifted and the part that the bit shifted out adds. -/
theorem crcShift_eq_xor (c : Word16) : crcShift c = c >>> 1 ^^^ (if c.getLsbD 0 then crcPolyRefl else 0#16) := by
  unfold crcShift
  split_ifs
  · rfl
  · exact BitVec.xor_zero.symm

/-- A shift with 0 in bit 0 only shifts. -/
theorem crcShift_of_bit_clear {c : Word16} (h : c.getLsbD 0 = false) : crcShift c = c >>> 1 := by
  rw [crcShift, h]
  rfl

/-- One shift of R110 is linear over xor: the bit shifted out of `a ^^^ b` is the xor of the two bits. -/
theorem crcShift_xor (a b : Word16) : crcShift (a ^^^ b) = crcShift a ^^^ crcShift b := by
  have hbit : (if (a ^^^ b).getLsbD 0 then crcPolyRefl else 0#16) =
      (if a.getLsbD 0 then crcPolyRefl else 0#16) ^^^ (if b.getLsbD 0 then crcPolyRefl else 0#16) := by
    rw [BitVec.getLsbD_xor]
    cases a.getLsbD 0 <;> cases b.getLsbD 0 <;> decide
  simp only [crcShift_eq_xor, BitVec.ushiftRight_xor_distrib, hbit]
  ac_rfl

/-- So are any number of shifts. -/
theorem iterate_crcShift_xor (k : Nat) (a b : Word16) :
    crcShift^[k] (a ^^^ b) = crcShift^[k] a ^^^ crcShift^[k] b := by
  induction k generalizing a b with
  | zero => rfl
  | succ k ih => simp only [Function.iterate_succ_apply, crcShift_xor, ih]

/-- Shifts of a value whose low bits are zero only shift. -/
theorem iterate_crcShift_of_low_clear (k : Nat) (v : Word16) (h : ∀ i < k, v.getLsbD i = false) :
    crcShift^[k] v = v >>> k := by
  induction k generalizing v with
  | zero => simp
  | succ k ih =>
    have hshift : crcShift v = v >>> 1 := crcShift_of_bit_clear (h 0 (by omega))
    have hlow : ∀ i < k, (v >>> 1).getLsbD i = false := fun i hi => by
      rw [BitVec.getLsbD_ushiftRight]
      exact h _ (by omega)
    rw [Function.iterate_succ_apply, hshift, ih _ hlow, ← BitVec.shiftRight_add, Nat.add_comm]

/-- The low octet of a value with a byte xored into its low end. -/
theorem lo8_xor_zext16 (c : Word16) (d : Byte) : lo8 (c ^^^ zext16 d) = lo8 c ^^^ d := by
  ext i hi
  simp [lo8, zext16, hi, show i < 16 by omega]

/-- The high octet does not see a byte in the low end. -/
theorem zext16_shiftRight (d : Byte) : zext16 d >>> 8 = 0#16 := by
  ext i hi
  simp [zext16]

/-- A value with its own low octet xored into the low end has no low octet. -/
theorem getLsbD_xor_zext16_lo8 (c : Word16) (i : Nat) (h : i < 8) : (c ^^^ zext16 (lo8 c)).getLsbD i = false := by
  simp [lo8, zext16, h, show i < 16 by omega]

/-- The byte step, its two octets apart (R112): the high one is shifted down, the low one xor the byte decides what is added. -/
theorem crcStep_eq_xor (c : Word16) (d : Byte) : crcStep c d = c >>> 8 ^^^ crcStep 0#16 (lo8 c ^^^ d) := by
  have hsplit : c ^^^ zext16 d = (c ^^^ zext16 (lo8 c)) ^^^ zext16 (lo8 c ^^^ d) := by
    ext i hi
    simp [zext16]
  have hhigh : crcShift^[8] (c ^^^ zext16 (lo8 c)) = c >>> 8 := by
    rw [iterate_crcShift_of_low_clear 8 _ (getLsbD_xor_zext16_lo8 c), BitVec.ushiftRight_xor_distrib, zext16_shiftRight,
      BitVec.xor_zero]
  rw [crcStep_eq_iterate, crcStep_eq_iterate, hsplit, iterate_crcShift_xor, hhigh, BitVec.zero_xor]

/-- The low octet as the mask of R112 takes it. -/
theorem toNat_and_low_octet (v : Word16) : (v &&& 0x00FF#16).toNat = (lo8 v).toNat := by
  have hmask : (0x00FF#16).toNat = 2 ^ 8 - 1 := rfl
  rw [BitVec.toNat_and, hmask, Nat.and_two_pow_sub_one_eq_mod]
  simp [lo8]

/-- Every entry of the table of R112 is the byte step of 0 (256 entries, evaluated). -/
theorem crcTable_entry : ∀ d : Byte, crcTable[d.toNat]? = some (crcStep 0#16 d) := by decide +kernel

/-- The table step is the byte step (R112). -/
theorem crcStepT_eq_crcStep (c : Word16) (d : Byte) : crcStepT c d = crcStep c d := by
  rw [crcStepT, toNat_and_low_octet, lo8_xor_zext16, List.getD_eq_getElem?_getD, crcTable_entry, Option.getD_some,
    ← crcStep_eq_xor]

/-- Settles O14: the length and the entries by evaluation, the step by linearity (`crcStepT_eq_crcStep`). -/
theorem crcTableEqualsBitwise : Obligations.CrcTableEqualsBitwise := by
  unfold Obligations.CrcTableEqualsBitwise
  exact ⟨by decide +kernel, crcTable_entry, crcStepT_eq_crcStep⟩

/-- Nothing is added when nothing is left in the low octet. -/
theorem crcStep_zero_zero : crcStep 0#16 0#8 = 0#16 := rfl

/-- Absorbing its own low octet shifts the accumulator down (R113). -/
theorem crcStep_lo8 (c : Word16) : crcStep c (lo8 c) = c >>> 8 := by
  rw [crcStep_eq_xor, BitVec.xor_self, crcStep_zero_zero, BitVec.xor_zero]

/-- The octet above is then the low one. -/
theorem lo8_shiftRight (c : Word16) : lo8 (c >>> 8) = hi8 c := by
  ext i hi
  simp [lo8, hi8]

/-- Absorbing both of its octets leaves nothing (R113). -/
theorem foldl_crcStep_le2 (c : Word16) : (le2 c).foldl crcStep c = 0#16 := by
  have hhi : crcStep (c >>> 8) (hi8 c) = c >>> 8 >>> 8 := by rw [← lo8_shiftRight, crcStep_lo8]
  have hgone : c >>> 8 >>> 8 = 0#16 := by
    rw [← BitVec.shiftRight_add]
    exact BitVec.ushiftRight_eq_zero (by omega)
  simp only [le2, List.foldl_cons, List.foldl_nil, crcStep_lo8, hhi, hgone]

/-- Settles O15: the fold goes on over the two octets of what it has reached (`foldl_crcStep_le2`). -/
theorem crcResidueZero : Obligations.CrcResidueZero := by
  unfold Obligations.CrcResidueZero
  intro bs
  rw [crc16_append]
  exact foldl_crcStep_le2 (crc16 bs)

/-- A shift gives 0 for 0 only: what bit 0 adds has bit 15 set, and what is shifted has not. -/
theorem eq_zero_of_crcShift {c : Word16} (h : crcShift c = 0#16) : c = 0#16 := by
  cases hbit : c.getLsbD 0 with
  | true =>
    have htop := congrArg (fun v => v.getLsbD 15) h
    simp [crcShift_eq_xor, hbit, crcPolyRefl] at htop
  | false =>
    have hshift : c >>> 1 = 0#16 := (crcShift_of_bit_clear hbit).symm.trans h
    have hodd : c.toNat % 2 = 0 := by simpa [BitVec.getLsbD, Nat.testBit_zero] using hbit
    bv_omega

/-- Different values stay different in a shift (R110). -/
theorem crcShift_injective : Function.Injective crcShift := by
  intro a b h
  have hxor : crcShift (a ^^^ b) = 0#16 := by rw [crcShift_xor, h, BitVec.xor_self]
  exact BitVec.xor_eq_zero_iff.1 (eq_zero_of_crcShift hxor)

/-- Different accumulators stay different when they absorb the same byte. -/
theorem crcStep_left_injective (d : Byte) : Function.Injective (fun c => crcStep c d) := by
  intro a b h
  simp only [crcStep_eq_iterate] at h
  exact (BitVec.xor_left_inj (zext16 d)).1 (crcShift_injective.iterate 8 h)

/-- Different bytes make the same accumulator different. -/
theorem crcStep_right_injective (c : Word16) : Function.Injective (crcStep c) := by
  intro a b h
  rw [crcStep_eq_iterate, crcStep_eq_iterate] at h
  have hlow := congrArg lo8 (crcShift_injective.iterate 8 h)
  rw [lo8_xor_zext16, lo8_xor_zext16] at hlow
  exact (BitVec.xor_right_inj (lo8 c)).1 hlow

/-- Different accumulators stay different over a whole sequence. -/
theorem foldl_crcStep_injective (q : List Byte) : Function.Injective (fun c => q.foldl crcStep c) := by
  induction q with
  | nil => exact Function.injective_id
  | cons d q ih => exact ih.comp (crcStep_left_injective d)

/-- Settles O16: the byte that differs makes the accumulators differ, and what follows keeps them so. -/
theorem crcTellsOneByteApart : Obligations.CrcTellsOneByteApart := by
  unfold Obligations.CrcTellsOneByteApart
  intro p q a b hab heq
  rw [crc16_append, crc16_append] at heq
  exact hab (crcStep_right_injective _ (foldl_crcStep_injective q heq))

end Sys2Proof.Machine
end

section
/-!
PROOF. The frame codec (42_frame.md): header parsing and serializing as inverses (R162), what frame encode and frame decode accept (R160,
R171), and what follows for a frame's shape (R164), its capacity (70_reset_and_hazards.md R247), corrupted bytes and joined or
broken frames (70_reset_and_hazards.md R249).
-/
namespace Sys2Proof.Machine

/-! ### Octets and headers -/

/-- Taking a 16-bit value of two octets apart gives the octets (R161). -/
theorem le2_le16 (a b : Byte) : le2 (le16 a b) = [a, b] := by
  have hlo : lo8 (le16 a b) = a := by
    ext i hi
    simp [lo8, le16, zext16, hi]
    omega
  have hhi : hi8 (le16 a b) = b := by
    ext i hi
    simp [hi8, le16, zext16, show 8 + i < 16 by omega, BitVec.getLsbD_eq_getElem hi]
  rw [le2, hlo, hhi]

/-- Taking a 24-bit value of three octets apart gives the octets (R161). -/
theorem le3_le24 (a b c : Byte) : le3 (le24 a b c) = [a, b, c] := by
  have h0 : (le24 a b c).extractLsb' 0 8 = a := by
    ext i hi
    simp [le24, hi, show i < 24 by omega, show i < 16 by omega]
  have h1 : (le24 a b c).extractLsb' 8 8 = b := by
    ext i hi
    simp [le24, show 8 + i < 24 by omega, show 8 + i < 16 by omega, BitVec.getLsbD_eq_getElem hi]
  have h2 : (le24 a b c).extractLsb' 16 8 = c := by
    ext i hi
    simp [le24, show 16 + i < 24 by omega, show ¬ 16 + i < 16 by omega, BitVec.getLsbD_of_ge a (16 + i) (by omega),
      BitVec.getLsbD_of_ge b (16 + i - 8) (by omega), BitVec.getLsbD_eq_getElem hi]
  rw [le3, h0, h1, h2]

/-- A parsed device serializes to the seven octets it was parsed from (R161, R162). -/
theorem serDevice_parseDevice (h : List Byte) (i : Nat) :
    serDevice (parseDevice h i) = (List.range 7).map fun k => byteAt h (i + k) := by
  simp [serDevice, parseDevice, le3_le24, le2_le16, List.range_succ]

/-- The first bytes of a sequence, read one by one (R11). -/
theorem map_byteAt_range {h : List Byte} {n : Nat} (hn : n ≤ h.length) : (List.range n).map (byteAt h) = h.take n := by
  refine List.ext_getElem (by simp [hn]) fun i h1 h2 => ?_
  have hi : i < h.length := by simp at h2; omega
  simp [byteAt, hi]

/-- Serializing undoes parsing from 20 bytes on (R162). -/
theorem ser_parse {h : List Byte} (hlen : 20 ≤ h.length) : ser (parse h) = h := by
  have hheader : ser (parse h) = (List.range 20).map (byteAt h) ++ h.drop 20 := by
    simp [ser, parse, serDevice_parseDevice, le2_le16, List.range_succ, hdrLen]
  rw [hheader, map_byteAt_range hlen, List.take_append_drop]

/-- Parsing undoes serializing (R162). -/
theorem parse_ser (t : DataTable) : parse (ser t) = t := by
  simp [parse, parseDevice, ser, serDevice, le2, le3, byteAt, hdrLen]

/-- Settles O31: `parse_ser` and `ser_parse`. -/
theorem parseInvertsSerialize : Obligations.ParseInvertsSerialize := by
  unfold Obligations.ParseInvertsSerialize
  exact ⟨parse_ser, fun _ => ser_parse⟩

/-! ### What the encoder answers -/

/-- Frame encode of at most 1500 content bytes is the frame, checked against the capacity (R160). -/
theorem frameEncode_of_content_fits {t : DataTable} (h : ¬ 1500 < t.content.length) (cap : Nat) :
    frameEncode t cap = fitCap cap (enclose (unescaped t)) := by
  rw [frameEncode_eq, if_neg h]
  rfl

/-- Everything frame encode accepts: the frame of a table with at most 1500 content bytes, when it fits (R160). -/
theorem frameEncode_eq_ok_iff {t : DataTable} {cap : Nat} {w : List Byte} :
    frameEncode t cap = .ok w ↔
      t.content.length ≤ 1500 ∧ (enclose (unescaped t)).length ≤ cap ∧ enclose (unescaped t) = w := by
  by_cases hlong : 1500 < t.content.length
  · rw [frameEncode_eq, if_pos hlong]
    simp [Nat.not_le.2 hlong]
  · rw [frameEncode_of_content_fits hlong]
    rcases fitCap_cases cap (enclose (unescaped t)) with ⟨hfit, h⟩ | ⟨hsmall, h⟩ <;> rw [h]
    · simp [Nat.not_lt.1 hlong, hfit]
    · simp [Nat.not_le.2 hsmall]

/-- The frame of a table is at most 46 bytes and twice the content long (70_reset_and_hazards.md R247). -/
theorem enclose_unescaped_length_le (t : DataTable) :
    (enclose (unescaped t)).length ≤ 46 + 2 * t.content.length := by
  have hcount := countSpecial_le_length (unescaped t)
  rw [unescaped, withCrc_length, ser_length] at hcount
  rw [enclose_unescaped_length, unescaped]
  omega

/-- The special bytes of the content are among those of the unescaped sequence (30_encoding.md R91). -/
theorem countSpecial_content_le (t : DataTable) : countSpecial t.content ≤ countSpecial (unescaped t) := by
  simp only [countSpecial, unescaped, withCrc, ser, List.countP_append]
  omega

/-- Every byte of a content of delimiters is special. -/
theorem countSpecial_of_all_delim {bs : List Byte} (h : ∀ b ∈ bs, b = delim) : countSpecial bs = bs.length :=
  List.countP_eq_length.2 fun b hb => by
    rw [h b hb]
    rfl

/-- Settles O38: the longest frame of `n` content bytes has `46 + 2 * n` bytes, and one of `n` delimiters has at least
`24 + 2 * n`. -/
theorem capacityBounds : Obligations.CapacityBounds := by
  unfold Obligations.CapacityBounds
  have hfits (t : DataTable) (cap : Nat) (hlen : t.content.length ≤ 1500) (hcap : 46 + 2 * t.content.length ≤ cap) :
      ∃ w, frameEncode t cap = .ok w :=
    ⟨_, frameEncode_eq_ok_iff.2 ⟨hlen, (enclose_unescaped_length_le t).trans hcap, rfl⟩⟩
  refine ⟨fun t h => hfits t _ h (by omega), fun t h => hfits t _ (by omega) (by omega), fun t hmin hmax hall => ?_,
    escSeq_length_le⟩
  have hcount := countSpecial_content_le t
  rw [countSpecial_of_all_delim hall] at hcount
  have hlen := enclose_unescaped_length t
  rw [frameEncode_of_content_fits (by omega), fitCap_small (by omega)]

/-- In a sequence without delimiters and one delimiter behind it, the one stands at the end. -/
theorem append_delim_getElem?_iff {m : List Byte} (hm : delim ∉ m) (j : Nat) :
    (m ++ [delim])[j]? = some delim ↔ j = m.length := by
  rw [List.getElem?_append]
  split_ifs with hj
  · exact iff_of_false (fun h => hm (List.mem_of_getElem? h)) hj.ne
  · simp [List.getElem?_singleton]
    omega

/-- In a sequence between two delimiters that holds none itself, delimiters stand at the two ends only (30_encoding.md R101). -/
theorem enclosed_getElem?_iff {m : List Byte} (hm : delim ∉ m) (i : Nat) :
    ([delim] ++ m ++ [delim])[i]? = some delim ↔ i = 0 ∨ i = ([delim] ++ m ++ [delim]).length - 1 := by
  cases i with
  | zero => simp
  | succ j =>
    rw [List.append_assoc, List.singleton_append, List.getElem?_cons_succ, append_delim_getElem?_iff hm]
    simp

/-- The delimiters of an encoded frame (30_encoding.md R101). -/
theorem enclose_getElem?_eq_delim_iff (u : List Byte) (i : Nat) :
    (enclose u)[i]? = some delim ↔ i = 0 ∨ i = (enclose u).length - 1 :=
  enclosed_getElem?_iff (delim_not_mem_escSeq u) i

/-- Settles O33: the length of the frame, its bounds, and its delimiters. -/
theorem encodedFrameShape : Obligations.EncodedFrameShape := by
  unfold Obligations.EncodedFrameShape
  intro t cap w h
  obtain ⟨hcontent, -, rfl⟩ := frameEncode_eq_ok_iff.1 h
  have hlen := enclose_unescaped_length t
  have hmax := enclose_unescaped_length_le t
  exact ⟨hlen, by omega, by omega, enclose_getElem?_eq_delim_iff (unescaped t)⟩

/-! ### What the decoder answers -/

/-- Frame decode of an enclosed sequence takes steps 3 to 5 on that sequence (R171). -/
theorem frameDecode_enclose (u : List Byte) : frameDecode (enclose u) = decodeUnescaped u := by
  rw [enclose, frameDecode_enclosed, unescSeq_escSeq]
  rfl

/-- Frame decode raises `ESCAPE` when a delimiter stands inside (R132, R171). -/
theorem frameDecode_of_inner_delim {m : List Byte} (h : delim ∈ m) :
    frameDecode ([delim] ++ m ++ [delim]) = .error .escape := by
  have hbad : unescSeq m = .error .escape := unescSeq_of_not_escaped fun v hv => delim_not_mem_escSeq v (hv ▸ h)
  rw [frameDecode_enclosed, hbad]
  rfl

/-- Everything frame decode accepts is an enclosed sequence that steps 3 to 5 accept (R171). -/
theorem frameDecode_eq_ok_iff {w : List Byte} {t : DataTable} :
    frameDecode w = .ok t ↔ ∃ u, w = enclose u ∧ decodeUnescaped u = .ok t := by
  constructor
  · intro h
    by_cases hform : ∃ m, w = [delim] ++ m ++ [delim]
    · obtain ⟨m, rfl⟩ := hform
      rw [frameDecode_enclosed] at h
      cases hm : unescSeq m with
      | error e =>
        rw [hm] at h
        cases h
      | ok u =>
        rw [hm] at h
        exact ⟨u, by rw [enclose, escSeq_of_unescSeq hm], h⟩
    · rw [frameDecode_of_not_enclosed (not_exists.1 hform)] at h
      cases h
  · rintro ⟨u, rfl, h⟩
    rwa [frameDecode_enclose]

/-- Steps 3 to 5 on a header and content within the bounds and two octets behind: the CRC decides (R171). -/
theorem decodeUnescaped_append {h : List Byte} (hmin : 20 ≤ h.length) (hmax : h.length ≤ 1520) (a b : Byte) :
    decodeUnescaped (h ++ [a, b]) = if crc16 h = le16 a b then .ok (parse h) else .error .crc := by
  have hlen : (h ++ [a, b]).length = h.length + 2 := by simp
  have hcut : (h ++ [a, b]).take (h.length + 2 - 3 + 1) = h := List.take_left' (by omega)
  rw [decodeUnescaped_eq, hlen, if_neg (by omega), if_neg (by omega), hcut, ite_not]
  simp

/-- Steps 3 to 5 accept a header and content within the bounds with its own CRC (R171). -/
theorem decodeUnescaped_withCrc {h : List Byte} (hmin : 20 ≤ h.length) (hmax : h.length ≤ 1520) :
    decodeUnescaped (withCrc h) = .ok (parse h) := by
  rw [withCrc, le2, decodeUnescaped_append hmin hmax, le16_lo8_hi8, if_pos rfl]

/-- Steps 3 to 5 accept the unescaped sequence of a table with at most 1500 content bytes (R171, R176). -/
theorem decodeUnescaped_unescaped {t : DataTable} (h : t.content.length ≤ 1500) :
    decodeUnescaped (unescaped t) = .ok t := by
  rw [unescaped, decodeUnescaped_withCrc (by rw [ser_length]; omega) (by rw [ser_length]; omega), parse_ser]

/-- The lengths steps 3 and 4 let pass (R171). -/
theorem length_of_decodeUnescaped {u : List Byte} {t : DataTable} (h : decodeUnescaped u = .ok t) :
    22 ≤ u.length ∧ u.length ≤ 1522 := by
  rw [decodeUnescaped_eq] at h
  split_ifs at h
  omega

/-- A sequence of two or more bytes, with its last two apart. -/
theorem exists_append_pair {u : List Byte} (h : 2 ≤ u.length) : ∃ (v : List Byte) (a b : Byte), u = v ++ [a, b] := by
  obtain ⟨a, b, hab⟩ := List.length_eq_two.1 (show (u.drop (u.length - 2)).length = 2 by simp; omega)
  exact ⟨u.take (u.length - 2), a, b, by rw [← hab, List.take_append_drop]⟩

/-- What steps 3 to 5 accept is the unescaped sequence of the table they answer (R171). -/
theorem unescaped_of_decodeUnescaped {u : List Byte} {t : DataTable} (h : decodeUnescaped u = .ok t) :
    u = unescaped t ∧ t.content.length ≤ 1500 := by
  obtain ⟨hmin, hmax⟩ := length_of_decodeUnescaped h
  obtain ⟨v, a, b, rfl⟩ := exists_append_pair (show 2 ≤ u.length by omega)
  have hlen : (v ++ [a, b]).length = v.length + 2 := by simp
  rw [decodeUnescaped_append (by omega) (by omega)] at h
  split_ifs at h with hcrc
  obtain rfl : parse v = t := Except.ok.inj h
  have hser : ser (parse v) = v := ser_parse (by omega)
  have hcontent := ser_length (parse v)
  rw [hser] at hcontent
  refine ⟨?_, by omega⟩
  rw [unescaped, hser, withCrc, hcrc, le2_le16]

/-- Settles O36: both answer exactly for the frames of tables with at most 1500 content bytes, which fit 3046 bytes. -/
theorem decoderAcceptsExactlyEncoded : Obligations.DecoderAcceptsExactlyEncoded := by
  unfold Obligations.DecoderAcceptsExactlyEncoded
  intro w t
  rw [frameDecode_eq_ok_iff, frameEncode_eq_ok_iff]
  constructor
  · rintro ⟨u, rfl, hu⟩
    obtain ⟨rfl, hcontent⟩ := unescaped_of_decodeUnescaped hu
    have hlen := enclose_unescaped_length_le t
    exact ⟨hcontent, by omega, rfl⟩
  · rintro ⟨hcontent, -, rfl⟩
    exact ⟨unescaped t, rfl, decodeUnescaped_unescaped hcontent⟩

/-- Settles O35: the encoder returns the enclosed unescaped sequence, and decode takes back the enclosure, the escape, the CRC
and the header. -/
theorem frameRoundTrip : Obligations.FrameRoundTrip := by
  unfold Obligations.FrameRoundTrip
  rintro s t rfl hcontent hcap
  refine ⟨enclose (unescaped s.operands.tbl), ?_, fun s' hsrc hfit => ?_⟩
  · have hlen : (enclose (unescaped s.operands.tbl)).length ≤ s.operands.cap := by
      rw [enclose_unescaped_length]
      exact hcap
    rw [exec_frameEncode_of_content_fits (by omega), if_pos hlen]
    rfl
  · rw [exec_frameDecode_of_srcFits hfit, hsrc, frameDecode_enclose, decodeUnescaped_unescaped hcontent]
    rfl

/-- Settles O37: the two CRCs differ (O16), so the last check of the decoder fails. -/
theorem corruptedByteIsCrcError : Obligations.CorruptedByteIsCrcError := by
  unfold Obligations.CorruptedByteIsCrcError
  intro p q a b hab hmin hmax
  have hlen : (p ++ b :: q).length = (p ++ a :: q).length := by simp
  have hcrc : crc16 (p ++ b :: q) ≠ crc16 (p ++ a :: q) := crcTellsOneByteApart p q b a hab.symm
  rw [frameDecode_enclose, le2,
    decodeUnescaped_append (by omega) (by omega), le16_lo8_hi8, if_neg hcrc]

/-- Settles O40: the delimiters of a candidate are in place, and no later step raises `FORMAT`. -/
theorem candidateFrameIsNeverFormat : Obligations.CandidateFrameIsNeverFormat := by
  unfold Obligations.CandidateFrameIsNeverFormat
  rintro w ⟨m, rfl, -⟩
  change frameDecode ([delim] ++ m ++ [delim]) ≠ _
  rw [frameDecode_enclosed]
  exact bind_ne_error (fun h => absurd (unescSeq_error m _ h) (by decide))
    fun u h => absurd (decodeUnescaped_error h) (by decide)

/-- A part of a frame that is itself between two delimiters is the whole frame (70_reset_and_hazards.md R249). -/
theorem eq_nil_of_enclosed_part {u before m rest : List Byte}
    (h : enclose u = before ++ ([delim] ++ m ++ [delim]) ++ rest) : before = [] ∧ rest = [] := by
  have hlen := congrArg List.length h
  simp only [List.length_append, List.length_cons, List.length_nil] at hlen
  have hfirst : (enclose u)[before.length]? = some delim := by simp [h]
  have hlast : (enclose u)[before.length + 1 + m.length]? = some delim := by
    rw [h, List.append_assoc, List.getElem?_append_right (by omega)]
    simp [show before.length + 1 + m.length - before.length = m.length + 1 by omega]
  rw [enclose_getElem?_eq_delim_iff] at hfirst hlast
  exact ⟨List.length_eq_zero_iff.1 (by omega), List.length_eq_zero_iff.1 (by omega)⟩

/-- Settles O39: a delimiter inside is `ESCAPE`; noise in front takes the place of the first delimiter; and the delimiters of a
frame stand at its ends only, so a proper part does not have both. -/
theorem oneFramePerDecode : Obligations.OneFramePerDecode := by
  unfold Obligations.OneFramePerDecode
  refine ⟨fun w w' t t' hw hw' => ?_, fun w t b noise hw hb => ?_, fun w t before part rest hw hsplit hne => ?_⟩
  · obtain ⟨u, rfl, -⟩ := frameDecode_eq_ok_iff.1 hw
    obtain ⟨u', rfl, -⟩ := frameDecode_eq_ok_iff.1 hw'
    have hjoin : enclose u ++ enclose u' = [delim] ++ (escSeq u ++ [delim, delim] ++ escSeq u') ++ [delim] := by
      simp [enclose]
    rw [hjoin]
    exact frameDecode_of_inner_delim (by simp)
  · refine frameDecode_of_not_enclosed fun m h => hb ?_
    exact (List.cons.inj h).1
  · obtain ⟨u, rfl, -⟩ := frameDecode_eq_ok_iff.1 hw
    refine frameDecode_of_not_enclosed fun m hpart => hne ?_
    obtain ⟨rfl, rfl⟩ := eq_nil_of_enclosed_part (hpart ▸ hsplit)
    rfl

end Sys2Proof.Machine
end

section
/-!
PROOF. The streaming decoder (41_escape.md R146, R147, R151): its response and its next `ESC_PEND` as functions of `ESC_PEND` and the byte, and
what its responses to a whole sequence say of that sequence.
-/
namespace Sys2Proof.Machine

/-- The response of `ESC_DEC_BYTE d` with `p` in `ESC_PEND` (R146). -/
def decReply (p : BitVec 1) (d : Byte) : Response :=
  if p = 0#1 then
    if d = esc then Response.done else if d = delim then Response.error .escape else Response.ofOut [d]
  else if d = escEnd then Response.ofOut [delim]
  else if d = escEsc then Response.ofOut [esc]
  else Response.error .escape

/-- What `ESC_DEC_BYTE d` leaves in `ESC_PEND` (R146). -/
def decPend (p : BitVec 1) (d : Byte) : BitVec 1 := if p = 0#1 ∧ d = esc then 1#1 else 0#1

/-- The response of `ESC_DEC_FLUSH` with `p` in `ESC_PEND` (R147). -/
def flushReply (p : BitVec 1) : Response := if p = 1#1 then Response.error .escape else Response.done

theorem decReply_not_pending (d : Byte) :
    decReply 0#1 d =
      if d = esc then Response.done else if d = delim then Response.error .escape else Response.ofOut [d] := rfl

theorem decReply_pending (d : Byte) :
    decReply 1#1 d =
      if d = escEnd then Response.ofOut [delim] else if d = escEsc then Response.ofOut [esc]
      else Response.error .escape := rfl

theorem decPend_not_pending (d : Byte) : decPend 0#1 d = if d = esc then 1#1 else 0#1 := by simp [decPend]

theorem decPend_pending (d : Byte) : decPend 1#1 d = 0#1 := rfl

/-- `ESC_DEC_BYTE` as the whole state it leaves, whatever is pending (R146). -/
theorem exec_escDecByte_eq_after (d : Byte) (s : State) :
    exec (.escDecByte d) s = .next
      (s.after s.crcAcc (decPend s.escPend d) (decReply s.escPend d).status.code (decReply s.escPend d)) := by
  rcases escPend_cases s.escPend with h | h
  · rw [exec_escDecByte_of_not_pending h, h, decReply_not_pending, decPend_not_pending]
    split_ifs <;> rfl
  · rw [exec_escDecByte_of_pending h, h, decReply_pending, decPend_pending]
    split_ifs <;> rfl

/-- `ESC_DEC_FLUSH` as the whole state it leaves, whatever is pending (R147). -/
theorem exec_escDecFlush_eq_after (s : State) :
    exec .escDecFlush s = .next
      (s.after s.crcAcc 0#1 (flushReply s.escPend).status.code (flushReply s.escPend)) := by
  rcases escPend_cases s.escPend with h | h
  · rw [exec_escDecFlush_of_not_pending h, h]
    rfl
  · rw [exec_escDecFlush_of_pending h, h]
    rfl

/-- The decoder's response is an output or the error `ESCAPE` (R146). -/
theorem decReply_cases (p : BitVec 1) (d : Byte) :
    (∃ w, decReply p d = Response.ofOut w) ∨ decReply p d = Response.error .escape := by
  unfold decReply
  split_ifs
  · exact .inl ⟨[], rfl⟩
  · exact .inr rfl
  · exact .inl ⟨_, rfl⟩
  · exact .inl ⟨_, rfl⟩
  · exact .inl ⟨_, rfl⟩
  · exact .inr rfl

/-- The flush returns nothing or the error `ESCAPE` (R147). -/
theorem flushReply_cases (p : BitVec 1) : flushReply p = Response.done ∨ flushReply p = Response.error .escape := by
  unfold flushReply
  split_ifs
  · exact .inr rfl
  · exact .inl rfl

/-- The responses to a sequence of bytes of a command that keeps a bit between them. -/
def streamReplies (reply : BitVec 1 → Byte → Response) (pend : BitVec 1 → Byte → BitVec 1) :
    BitVec 1 → List Byte → List Response
  | _, [] => []
  | p, d :: bs => reply p d :: streamReplies reply pend (pend p d) bs

section
variable (reply : BitVec 1 → Byte → Response) (pend : BitVec 1 → Byte → BitVec 1)

@[simp] theorem streamReplies_nil (p : BitVec 1) : streamReplies reply pend p [] = [] := rfl

@[simp] theorem streamReplies_cons (p : BitVec 1) (d : Byte) (bs : List Byte) :
    streamReplies reply pend p (d :: bs) = reply p d :: streamReplies reply pend (pend p d) bs := rfl

/-- The responses to the second of two sequences begin with the bit that the first leaves. -/
theorem streamReplies_append (p : BitVec 1) (bs cs : List Byte) :
    streamReplies reply pend p (bs ++ cs) =
      streamReplies reply pend p bs ++ streamReplies reply pend (bs.foldl pend p) cs := by
  induction bs generalizing p with
  | nil => rfl
  | cons d bs ih => simp [ih]

/-- A command that does not change the bit answers byte by byte. -/
theorem streamReplies_keep (p : BitVec 1) (bs : List Byte) :
    streamReplies reply (fun p _ => p) p bs = bs.map (reply p) := by
  induction bs with
  | nil => rfl
  | cons d bs ih => simp [ih]

@[simp] theorem streamReplies_length (p : BitVec 1) (bs : List Byte) :
    (streamReplies reply pend p bs).length = bs.length := by
  induction bs generalizing p with
  | nil => rfl
  | cons d bs ih => simp [ih]

end

/-- The responses to the bytes of `bs` and the flush behind them, from `ESC_PEND = 0` (R151). -/
def decReplies (bs : List Byte) : List Response :=
  streamReplies decReply decPend 0#1 bs ++ [flushReply (bs.foldl decPend 0#1)]

/-- Responses without an error, whose outputs joined are `v`. -/
def OkOutputs (rs : List Response) (v : List Byte) : Prop :=
  (∀ r ∈ rs, r.status = .ok) ∧ rs.flatMap Response.out = v

theorem okOutputs_nil : OkOutputs [] [] := ⟨by simp, rfl⟩

/-- One output. -/
theorem okOutputs_ofOut (w : List Byte) : OkOutputs [Response.ofOut w] w := ⟨by simp, by simp⟩

/-- Outputs are joined in the order of the responses. -/
theorem OkOutputs.append {rs rs' : List Response} {v v' : List Byte} (h : OkOutputs rs v) (h' : OkOutputs rs' v') :
    OkOutputs (rs ++ rs') (v ++ v') := by
  refine ⟨fun r hr => ?_, by rw [List.flatMap_append, h.2, h'.2]⟩
  rcases List.mem_append.1 hr with hr | hr
  · exact h.1 r hr
  · exact h'.1 r hr

/-- The decoder gives back a byte from its escape, and nothing is pending after it (R130, R146). -/
theorem decoder_escByte (b : Byte) :
    OkOutputs (streamReplies decReply decPend 0#1 (escByte b)) [b] ∧ (escByte b).foldl decPend 0#1 = 0#1 := by
  rcases escByte_cases b with ⟨rfl, h⟩ | ⟨rfl, h⟩ | ⟨hdelim, hesc, h⟩ <;> rw [h]
  · exact ⟨(okOutputs_ofOut []).append (okOutputs_ofOut [delim]), rfl⟩
  · exact ⟨(okOutputs_ofOut []).append (okOutputs_ofOut [esc]), rfl⟩
  · have hreply : decReply 0#1 b = Response.ofOut [b] := by simp [decReply_not_pending, hdelim, hesc]
    refine ⟨?_, by simp [decPend, hesc]⟩
    rw [streamReplies_cons, streamReplies_nil, hreply]
    exact okOutputs_ofOut [b]

/-- The decoder gives back a sequence from its escape, and nothing is pending after it (R151). -/
theorem decoder_escSeq (v : List Byte) :
    OkOutputs (streamReplies decReply decPend 0#1 (escSeq v)) v ∧ (escSeq v).foldl decPend 0#1 = 0#1 := by
  induction v with
  | nil => exact ⟨okOutputs_nil, rfl⟩
  | cons b v ih =>
    obtain ⟨hreplies, hpend⟩ := decoder_escByte b
    rw [escSeq_cons, streamReplies_append, List.foldl_append, hpend]
    exact ⟨hreplies.append ih.1, ih.2⟩

/-- What makes unescape answer `ESCAPE`, at the front of a sequence: a raw delimiter, a trailing `0xDB`, or a `0xDB` before any byte
other than `0xDC` and `0xDD` (R132). -/
def BadEscape (q : List Byte) : Prop :=
  (∃ q', q = delim :: q') ∨ q = [esc] ∨ ∃ n q', q = esc :: n :: q' ∧ n ≠ escEnd ∧ n ≠ escEsc

/-- A sequence that unescape rejects is an escaped sequence and a bad escape behind it (R132). -/
theorem exists_badEscape {bs : List Byte} {e : Status} (h : unescSeq bs = .error e) :
    ∃ v q, bs = escSeq v ++ q ∧ BadEscape q := by
  fun_induction unescSeq bs with
  | case1 => cases h
  | case2 rest => exact ⟨[], _, rfl, .inl ⟨rest, rfl⟩⟩
  | case3 => exact ⟨[], _, rfl, .inr (.inl rfl)⟩
  | case4 rest _ ih =>
    obtain ⟨v, q, rfl, hq⟩ := ih ((map_eq_error _ _ _).1 h)
    exact ⟨delim :: v, q, rfl, hq⟩
  | case5 rest _ _ ih =>
    obtain ⟨v, q, rfl, hq⟩ := ih ((map_eq_error _ _ _).1 h)
    exact ⟨esc :: v, q, rfl, hq⟩
  | case6 n rest hend hesc => exact ⟨[], _, rfl, .inr (.inr ⟨n, rest, rfl, hend, hesc⟩)⟩
  | case7 b rest hdelim hesc ih =>
    obtain ⟨v, q, rfl, hq⟩ := ih ((map_eq_error _ _ _).1 h)
    refine ⟨b :: v, q, ?_, hq⟩
    rw [escSeq_cons, escByte, if_neg hdelim, if_neg hesc]
    rfl

/-- After an escaped sequence the decoder goes on as from the start (R151). -/
theorem decReplies_escSeq_append (v q : List Byte) :
    decReplies (escSeq v ++ q) = streamReplies decReply decPend 0#1 (escSeq v) ++ decReplies q := by
  obtain ⟨-, hpend⟩ := decoder_escSeq v
  simp only [decReplies, streamReplies_append, List.foldl_append, hpend, List.append_assoc]

/-- The decoder answers a bad escape with `ESCAPE`, and with no output before it (R146, R147). -/
theorem decReplies_badEscape {q : List Byte} (h : BadEscape q) :
    ∃ rs rs', decReplies q = rs ++ Response.error .escape :: rs' ∧ OkOutputs rs [] := by
  rcases h with ⟨q', rfl⟩ | rfl | ⟨n, q', rfl, hend, hesc⟩
  · exact ⟨[], _, rfl, okOutputs_nil⟩
  · exact ⟨[Response.done], [], rfl, okOutputs_ofOut []⟩
  · have hreply : decReply 1#1 n = Response.error .escape := by simp [decReply_pending, hend, hesc]
    have hpend : decPend 0#1 esc = 1#1 := rfl
    rw [decReplies, streamReplies_cons, streamReplies_cons, hpend, hreply]
    exact ⟨[Response.done], _, rfl, okOutputs_ofOut []⟩

/-- The decoder on a sequence that unescape accepts (R151). -/
theorem decReplies_of_ok {bs v : List Byte} (h : unescSeq bs = .ok v) : OkOutputs (decReplies bs) v := by
  obtain ⟨hreplies, hpend⟩ := decoder_escSeq v
  have hall := hreplies.append (okOutputs_ofOut [])
  rw [List.append_nil] at hall
  rwa [← escSeq_of_unescSeq h, decReplies, hpend]

/-- The decoder on a sequence that unescape rejects: `ESCAPE`, after the outputs of what stands before the bad escape (R151). -/
theorem decReplies_of_error {bs : List Byte} {e : Status} (h : unescSeq bs = .error e) :
    ∃ v q rs rs', bs = escSeq v ++ q ∧ BadEscape q ∧ decReplies bs = rs ++ Response.error .escape :: rs' ∧
      OkOutputs rs v := by
  obtain ⟨v, q, rfl, hq⟩ := exists_badEscape h
  obtain ⟨rs, rs', hrs, hok⟩ := decReplies_badEscape hq
  refine ⟨v, q, _ ++ rs, rs', rfl, hq, by rw [decReplies_escSeq_append, hrs, List.append_assoc], ?_⟩
  simpa using (decoder_escSeq v).1.append hok

/-- The responses before the first `ESCAPE` are those without an error in front of it. -/
theorem takeWhile_before_escape {rs rs' : List Response} {v : List Byte} (h : OkOutputs rs v) :
    (rs ++ Response.error .escape :: rs').takeWhile (fun r => decide (r.status ≠ .escape)) = rs := by
  rw [List.takeWhile_append_of_pos fun r hr => by simp [h.1 r hr]]
  simp

end Sys2Proof.Machine
end

section
/-!
PROOF. What every step keeps (10_state.md R31, R35, 42_frame.md R171, 60_exceptions.md R213, R220): the invariant, the completion of every run,
and the order of the responses (20_memory.md R63).
-/
namespace Sys2Proof.Machine

/-! ### Responses that may be returned -/

/-- A response that meets the invariant's clause on responses. -/
def Response.Sound (r : Response) : Prop := r.ErrorIsEmpty ∧ r.TableFits

/-- An error without data is sound. -/
theorem Response.sound_error (e : Status) : (Response.error e).Sound := by
  refine ⟨fun _ => ⟨rfl, rfl, rfl⟩, ?_⟩
  rintro t ⟨⟩

/-- A response with status `OK` and no table is sound. -/
theorem Response.sound_of_ok {r : Response} (hok : r.status = .ok) (htbl : r.tbl = none) : r.Sound := by
  refine ⟨fun herr => absurd hok herr, fun t ht => ?_⟩
  rw [htbl] at ht
  cases ht

/-- A response with a table within 1500 content bytes is sound. -/
theorem Response.sound_ofTbl {t : DataTable} (h : t.content.length ≤ 1500) : (Response.ofTbl t).Sound := by
  refine ⟨fun herr => absurd rfl herr, ?_⟩
  rintro _ ⟨⟩
  exact h

/-- The transaction on the port ends with `t`, in one sound response. -/
def State.Returns (s t : State) : Prop := ∃ c p q r, t = s.after c p q r ∧ r.Sound

/-- A state after one sound response. -/
theorem State.returns_after (s : State) (c : Word16) (p : BitVec 1) (q : BitVec 4) {r : Response} (h : r.Sound) :
    s.Returns (s.after c p q r) := ⟨c, p, q, r, rfl, h⟩

/-- A state after a response with status `OK` and no table. -/
theorem State.returns_of_ok (s : State) (c : Word16) (p : BitVec 1) (q : BitVec 4) {r : Response} (hok : r.status = .ok)
    (htbl : r.tbl = none) : s.Returns (s.after c p q r) := s.returns_after c p q (Response.sound_of_ok hok htbl)

/-- A state after an error. -/
theorem State.returns_error (s : State) (c : Word16) (p : BitVec 1) (q : BitVec 4) (e : Status) :
    s.Returns (s.after c p q (Response.error e)) := s.returns_after c p q (Response.sound_error e)

/-- `answer` returns a sound response when every value it can be given does. -/
theorem State.returns_answer {α : Type} (s : State) {res : Except Status α} {f : α → Response}
    (hf : ∀ x, res = .ok x → (f x).Sound) : s.Returns (s.answer res f) := by
  cases res with
  | ok x => exact s.returns_after _ _ _ (hf x rfl)
  | error e => exact s.returns_error _ _ _ e

/-- Frame decode answers no table with more than 1500 content bytes (42_frame.md R171). -/
theorem content_le_of_frameDecode {w : List Byte} {t : DataTable} (h : frameDecode w = .ok t) :
    t.content.length ≤ 1500 := by
  obtain ⟨u, -, hu⟩ := frameDecode_eq_ok_iff.1 h
  exact (unescaped_of_decodeUnescaped hu).2

/-- `FRAME_DECODE` returns a sound response: of a frame within `MAX_SRC`, a table that fits (42_frame.md R181). -/
theorem State.returns_frameDecode (s : State) : s.Returns (s.answer (s.readSrc.bind frameDecode) Response.ofTbl) := by
  rcases s.readSrc_cases with ⟨-, h⟩ | ⟨-, h⟩ <;> rw [h]
  · exact s.returns_answer fun t ht => Response.sound_ofTbl (content_le_of_frameDecode ht)
  · exact s.returns_error _ _ _ .invalidParam

/-- Every command returns one sound response. -/
theorem exec_returns (i : Instr) (s : State) : ∃ t, exec i s = .next t ∧ s.Returns t := by
  cases i with
  | crcInit => exact ⟨_, exec_crcInit_eq_after s, s.returns_of_ok _ _ _ rfl rfl⟩
  | crcUpdate d => exact ⟨_, exec_crcUpdate_eq_after d s, s.returns_of_ok _ _ _ rfl rfl⟩
  | crcRead => exact ⟨_, exec_crcRead_eq_after s, s.returns_of_ok _ _ _ rfl rfl⟩
  | crcBlock =>
    by_cases hfit : s.SrcFits
    · exact ⟨_, exec_crcBlock_of_srcFits hfit, s.returns_of_ok _ _ _ rfl rfl⟩
    · exact ⟨_, exec_crcBlock_of_not_srcFits hfit, s.returns_error _ _ _ _⟩
  | escEncByte d => exact ⟨_, exec_escEncByte_eq_after d s, s.returns_of_ok _ _ _ rfl rfl⟩
  | escEncBlock =>
    exact ⟨_, exec_escEncBlock_eq_answer s, s.returns_answer fun _ _ => Response.sound_of_ok rfl rfl⟩
  | escDecReset => exact ⟨_, exec_escDecReset_eq_after s, s.returns_of_ok _ _ _ rfl rfl⟩
  | escDecByte d =>
    refine ⟨_, exec_escDecByte_eq_after d s, s.returns_after _ _ _ ?_⟩
    rcases decReply_cases s.escPend d with ⟨w, h⟩ | h <;> rw [h]
    · exact Response.sound_of_ok rfl rfl
    · exact Response.sound_error _
  | escDecFlush =>
    refine ⟨_, exec_escDecFlush_eq_after s, s.returns_after _ _ _ ?_⟩
    rcases flushReply_cases s.escPend with h | h <;> rw [h]
    · exact Response.sound_of_ok rfl rfl
    · exact Response.sound_error _
  | escDecBlock =>
    exact ⟨_, exec_escDecBlock_eq_answer s, s.returns_answer fun _ _ => Response.sound_of_ok rfl rfl⟩
  | frameEncode =>
    exact ⟨_, exec_frameEncode_eq_answer s, s.returns_answer fun _ _ => Response.sound_of_ok rfl rfl⟩
  | frameDecode => exact ⟨_, exec_frameDecode_eq_answer s, s.returns_frameDecode⟩
  | statRead => exact ⟨_, exec_statRead_eq_after s, s.returns_of_ok _ _ _ rfl rfl⟩
  | softReset => exact ⟨_, exec_softReset_eq_after s, s.returns_of_ok _ _ _ rfl rfl⟩

/-- Every transaction returns one sound response, a rejected word's included. -/
theorem step_returns {s : State} {tr : Transaction} {rest : List HostEvent} (h : s.script = .command tr :: rest) :
    ∃ t, step s = .next t ∧ s.Returns t := by
  cases hd : decode tr.cw with
  | error e => exact ⟨_, step_of_rejected h hd, s.returns_error _ _ _ _⟩
  | ok i =>
    rw [step_of_command h hd]
    exact exec_returns i s

/-! ### The invariant -/

/-- `STATUS` is legal after a transaction: it holds the response's code, or what it held (R35). -/
theorem statusLegal_of_transaction {s t : State} {tr : Transaction} {rest : List HostEvent}
    (h : s.script = .command tr :: rest) (hstep : step s = .next t) (hs : s.StatusLegal) : t.StatusLegal := by
  obtain ⟨c, p, r, hr⟩ := step_of_transaction h
  obtain rfl := Host.Outcome.next.inj (hr.symm.trans hstep)
  rw [State.StatusLegal, State.after_status]
  split_ifs
  · exact hs
  · exact r.status.code_le

/-- What the port can hold: nothing, a power-on reset, or a transaction. -/
theorem script_cases (s : State) :
    s.script = [] ∨ (∃ o rest, s.script = .powerOnReset o :: rest) ∨ ∃ tr rest, s.script = .command tr :: rest := by
  match h : s.script with
  | [] => exact .inl rfl
  | .powerOnReset o :: rest => exact .inr (.inl ⟨o, rest, rfl⟩)
  | .command tr :: rest => exact .inr (.inr ⟨tr, rest, rfl⟩)

/-- Settles O45: an idle step changes nothing, a power-on reset adds no response, and a transaction adds a sound one
(`step_returns`) and a legal `STATUS`. -/
theorem stepKeepsInvariant : Obligations.StepKeepsInvariant := by
  unfold Obligations.StepKeepsInvariant
  rintro s t ⟨hlegal, hsound⟩ hstep
  rcases script_cases s with h | ⟨o, rest, h⟩ | ⟨tr, rest, h⟩
  · obtain rfl := Host.Outcome.next.inj ((step_of_idle h).symm.trans hstep)
    exact ⟨hlegal, hsound⟩
  · obtain rfl := Host.Outcome.next.inj ((step_of_powerOnReset h).symm.trans hstep)
    exact ⟨Nat.zero_le 8, hsound⟩
  · refine ⟨statusLegal_of_transaction h hstep hlegal, ?_⟩
    obtain ⟨u, hu, c, p, q, r, rfl, hr⟩ := step_returns h
    obtain rfl := Host.Outcome.next.inj (hu.symm.trans hstep)
    intro r' hmem
    rcases List.mem_append.1 hmem with hold | hnew
    · exact hsound r' hold
    · rw [List.mem_singleton.1 hnew]
      exact hr

/-- Settles O44: `STATUS` is 0, and nothing has been returned. -/
theorem resetMeetsInvariant : Obligations.ResetMeetsInvariant := by
  unfold Obligations.ResetMeetsInvariant
  exact ⟨Nat.zero_le 8, fun _ hr => absurd hr List.not_mem_nil⟩

/-! ### Runs -/

/-- Every step of every state answers a next state (60_exceptions.md R220). -/
theorem step_completes (s : State) : ∃ t, step s = .next t := by
  rcases script_cases s with h | ⟨o, rest, h⟩ | ⟨tr, rest, h⟩
  · exact ⟨s, step_of_idle h⟩
  · exact ⟨s.powerOn, step_of_powerOnReset h⟩
  · obtain ⟨t, ht, -⟩ := step_returns h
    exact ⟨t, ht⟩

/-- Settles O43, by induction on the number of steps (`step_completes`). -/
theorem everyRunCompletes : Obligations.EveryRunCompletes := by
  unfold Obligations.EveryRunCompletes
  intro k
  induction k with
  | zero => exact fun s => ⟨s, run_zero s⟩
  | succ k ih =>
    intro s
    obtain ⟨u, hu⟩ := step_completes s
    rw [run_succ hu]
    exact ih u

/-- A run over the commands at the head of a script returns one response for each and leaves the rest next (20_memory.md R63). -/
theorem run_commands {ts : List Transaction} {s : State} {rest : List HostEvent} (h : s.script = commands ts ++ rest) :
    ∃ t rs, run ts.length s = .next t ∧ rs.length = ts.length ∧ t.responses = s.responses ++ rs ∧ t.script = rest := by
  induction ts generalizing s with
  | nil => exact ⟨s, [], rfl, rfl, by simp, h⟩
  | cons tr ts ih =>
    obtain ⟨u, hu, c, p, q, r, rfl, -⟩ := step_returns (s := s) (tr := tr) (rest := commands ts ++ rest) h
    obtain ⟨t, rs, hrun, hlen, hresp, hrest⟩ := ih (s := s.after c p q r) (by rw [State.after_script, h]; rfl)
    refine ⟨t, r :: rs, ?_, by simp [hlen], by simp [hresp], hrest⟩
    rw [List.length_cons, run_succ hu, hrun]

/-- Settles O51: `run_commands` for each part, `run_add` for both. -/
theorem oneResponsePerCommandInOrder : Obligations.OneResponsePerCommandInOrder := by
  unfold Obligations.OneResponsePerCommandInOrder
  intro ts ts' s rest h
  have hsplit : s.script = commands ts ++ (commands ts' ++ rest) := by simp [h, commands]
  obtain ⟨t, rs, hrun, hlen, hresp, hscript⟩ := run_commands hsplit
  obtain ⟨u, rs', hrun', hlen', hresp', hscript'⟩ := run_commands hscript
  exact ⟨t, rs, u, rs', hrun, hlen, hresp, hscript, hrun', hlen', by rw [hresp', hresp], hscript',
    (run_add hrun).trans hrun'⟩

end Sys2Proof.Machine
end

section
/-!
PROOF. What the commands write and read (10_state.md R31, 30_encoding.md R71, R73), and which of them are idempotent
(20_memory.md R61).
-/
namespace Sys2Proof.Machine

/-- The commands that can change `CRC_ACC` (R31). -/
def WritesCrcAcc (i : Instr) : Prop := i = .crcInit ∨ (∃ d, i = .crcUpdate d) ∨ i = .crcBlock ∨ i = .softReset

/-- The commands that can change `ESC_PEND` (R31). -/
def WritesEscPend (i : Instr) : Prop := i = .escDecReset ∨ (∃ d, i = .escDecByte d) ∨ i = .escDecFlush ∨ i = .softReset

/-- Every command leaves `CRC_ACC` or is one that writes it, and the same for `ESC_PEND` (R31). -/
theorem exec_writes (i : Instr) (s : State) :
    ∃ c p q r, exec i s = .next (s.after c p q r) ∧ (c = s.crcAcc ∨ WritesCrcAcc i) ∧
      (p = s.escPend ∨ WritesEscPend i) := by
  cases i with
  | crcInit => exact ⟨_, _, _, _, exec_crcInit_eq_after s, .inr (.inl rfl), .inl rfl⟩
  | crcUpdate d => exact ⟨_, _, _, _, exec_crcUpdate_eq_after d s, .inr (.inr (.inl ⟨d, rfl⟩)), .inl rfl⟩
  | crcRead => exact ⟨_, _, _, _, exec_crcRead_eq_after s, .inl rfl, .inl rfl⟩
  | crcBlock =>
    by_cases hfit : s.SrcFits
    · exact ⟨_, _, _, _, exec_crcBlock_of_srcFits hfit, .inr (.inr (.inr (.inl rfl))), .inl rfl⟩
    · exact ⟨_, _, _, _, exec_crcBlock_of_not_srcFits hfit, .inl rfl, .inl rfl⟩
  | escEncByte d => exact ⟨_, _, _, _, exec_escEncByte_eq_after d s, .inl rfl, .inl rfl⟩
  | escDecReset => exact ⟨_, _, _, _, exec_escDecReset_eq_after s, .inl rfl, .inr (.inl rfl)⟩
  | escDecByte d => exact ⟨_, _, _, _, exec_escDecByte_eq_after d s, .inl rfl, .inr (.inr (.inl ⟨d, rfl⟩))⟩
  | escDecFlush => exact ⟨_, _, _, _, exec_escDecFlush_eq_after s, .inl rfl, .inr (.inr (.inr (.inl rfl)))⟩
  | escEncBlock | escDecBlock | frameEncode | frameDecode =>
    obtain ⟨r, h⟩ := s.answer_eq_after _ _
    exact ⟨_, _, _, r, congrArg Host.Outcome.next h, .inl rfl, .inl rfl⟩
  | statRead => exact ⟨_, _, _, _, exec_statRead_eq_after s, .inl rfl, .inl rfl⟩
  | softReset => exact ⟨_, _, _, _, exec_softReset_eq_after s, .inr (.inr (.inr (.inr rfl))), .inr (.inr (.inr (.inr rfl)))⟩

/-- Settles O48: a register that a command does not write stays (`exec_writes`), `STAT_READ` leaves `STATUS`, and `MAX_SRC` is in no
transaction. -/
theorem registerWriters : Obligations.RegisterWriters := by
  unfold Obligations.RegisterWriters
  intro i s t h
  obtain ⟨c, p, q, r, hexec, hcrc, hpend⟩ := exec_writes i s
  obtain rfl := Host.Outcome.next.inj (hexec.symm.trans h)
  refine ⟨hcrc.resolve_left, hpend.resolve_left, ?_, rfl⟩
  rintro hstatus rfl
  refine hstatus ?_
  rw [Host.Outcome.next.inj (hexec.symm.trans (exec_statRead_eq_after s)), State.after_status]

/-- The check of `SRC` reads `SRC` and `MAX_SRC` alone. -/
theorem State.readSrc_congr_src {s₁ s₂ : State} (hsrc : s₁.operands.src = s₂.operands.src)
    (hmax : s₁.maxSrc = s₂.maxSrc) : s₁.readSrc = s₂.readSrc := by
  simp only [State.readSrc, hsrc, hmax]

/-- So does the condition it checks. -/
theorem State.srcFits_congr {s₁ s₂ : State} (hsrc : s₁.operands.src = s₂.operands.src) (hmax : s₁.maxSrc = s₂.maxSrc) :
    s₁.SrcFits ↔ s₂.SrcFits := by
  simp only [State.SrcFits, hsrc, hmax]

/-- The command has the same effect and the same response in both states. -/
def SameEffect (i : Instr) (s₁ s₂ : State) : Prop :=
  ∃ c p q r, exec i s₁ = .next (s₁.after c p q r) ∧ exec i s₂ = .next (s₂.after c p q r)

/-- A command that answers the same result has the same effect, when the two registers it leaves are the same. -/
theorem sameEffect_of_answer {α : Type} {i : Instr} {s₁ s₂ : State} {res : Except Status α} {f : α → Response}
    (hcrc : s₁.crcAcc = s₂.crcAcc) (hpend : s₁.escPend = s₂.escPend)
    (h₁ : exec i s₁ = .next (s₁.answer res f)) (h₂ : exec i s₂ = .next (s₂.answer res f)) : SameEffect i s₁ s₂ := by
  obtain ⟨r, hr₁, hr₂⟩ := same_response_of_answer h₁ h₂
  exact ⟨_, _, _, r, hr₁, by rw [hr₂, hcrc, hpend]⟩

/-- `CRC_BLOCK` has the same effect on the same `SRC`, within `MAX_SRC` or above it (40_crc.md R123). -/
theorem sameEffect_crcBlock {s₁ s₂ : State} (hcrc : s₁.crcAcc = s₂.crcAcc) (hpend : s₁.escPend = s₂.escPend)
    (hmax : s₁.maxSrc = s₂.maxSrc) (hsrc : s₁.operands.src = s₂.operands.src) : SameEffect .crcBlock s₁ s₂ := by
  by_cases hfit : s₁.SrcFits
  · have hfit₂ := (State.srcFits_congr hsrc hmax).1 hfit
    exact ⟨_, _, _, _, exec_crcBlock_of_srcFits hfit, by rw [exec_crcBlock_of_srcFits hfit₂, hpend, hsrc]⟩
  · have hfit₂ := mt (State.srcFits_congr hsrc hmax).2 hfit
    exact ⟨_, _, _, _, exec_crcBlock_of_not_srcFits hfit, by rw [exec_crcBlock_of_not_srcFits hfit₂, hcrc, hpend]⟩

/-- Settles O50: each command's effect is a function of the registers and of the operands its row names. -/
theorem unnamedOperandsAreIgnored : Obligations.UnnamedOperandsAreIgnored := by
  unfold Obligations.UnnamedOperandsAreIgnored
  intro i s₁ s₂ hcrc hpend hstatus hmax hsrc hcap htbl
  change SameEffect i s₁ s₂
  cases i with
  | crcInit => exact ⟨_, _, _, _, exec_crcInit_eq_after s₁, by rw [exec_crcInit_eq_after, hpend]⟩
  | crcUpdate d => exact ⟨_, _, _, _, exec_crcUpdate_eq_after d s₁, by rw [exec_crcUpdate_eq_after, hcrc, hpend]⟩
  | crcRead => exact ⟨_, _, _, _, exec_crcRead_eq_after s₁, by rw [exec_crcRead_eq_after, hcrc, hpend]⟩
  | crcBlock => exact sameEffect_crcBlock hcrc hpend hmax (hsrc (by simp))
  | escEncByte d => exact ⟨_, _, _, _, exec_escEncByte_eq_after d s₁, by rw [exec_escEncByte_eq_after, hcrc, hpend]⟩
  | escEncBlock =>
    have hread := State.readSrc_congr_src (hsrc (by simp)) hmax
    have hcap := hcap (by simp)
    exact sameEffect_of_answer hcrc hpend (exec_escEncBlock_eq_answer s₁)
      (by rw [exec_escEncBlock_eq_answer, hread, hcap])
  | escDecReset => exact ⟨_, _, _, _, exec_escDecReset_eq_after s₁, by rw [exec_escDecReset_eq_after, hcrc]⟩
  | escDecByte d => exact ⟨_, _, _, _, exec_escDecByte_eq_after d s₁, by rw [exec_escDecByte_eq_after, hcrc, hpend]⟩
  | escDecFlush => exact ⟨_, _, _, _, exec_escDecFlush_eq_after s₁, by rw [exec_escDecFlush_eq_after, hcrc, hpend]⟩
  | escDecBlock =>
    have hread := State.readSrc_congr_src (hsrc (by simp)) hmax
    have hcap := hcap (by simp)
    exact sameEffect_of_answer hcrc hpend (exec_escDecBlock_eq_answer s₁)
      (by rw [exec_escDecBlock_eq_answer, hread, hcap])
  | frameEncode =>
    have hcap := hcap (by simp)
    exact sameEffect_of_answer hcrc hpend (exec_frameEncode_eq_answer s₁)
      (by rw [exec_frameEncode_eq_answer, htbl rfl, hcap])
  | frameDecode =>
    have hread := State.readSrc_congr_src (hsrc (by simp)) hmax
    exact sameEffect_of_answer hcrc hpend (exec_frameDecode_eq_answer s₁)
      (by rw [exec_frameDecode_eq_answer, hread])
  | statRead =>
    exact ⟨_, _, _, _, exec_statRead_eq_after s₁, by rw [exec_statRead_eq_after, hcrc, hpend, hstatus]⟩
  | softReset => exact ⟨_, _, _, _, exec_softReset_eq_after s₁, exec_softReset_eq_after s₂⟩

/-- Settles O52: the three that write leave fixed values, and the two that read return what neither of them writes. -/
theorem idempotentCommands : Obligations.IdempotentCommands := by
  unfold Obligations.IdempotentCommands
  refine ⟨fun i hi s => ?_, fun i hi s => ?_⟩
  · simp only [List.mem_cons, List.not_mem_nil, or_false] at hi
    rcases hi with rfl | rfl | rfl
    · exact ⟨_, _, exec_crcInit_eq_after s, exec_crcInit_eq_after _, rfl, rfl, rfl⟩
    · exact ⟨_, _, exec_escDecReset_eq_after s, exec_escDecReset_eq_after _, rfl, rfl, rfl⟩
    · exact ⟨_, _, exec_softReset_eq_after s, exec_softReset_eq_after _, rfl, rfl, rfl⟩
  · simp only [List.mem_cons, List.not_mem_nil, or_false] at hi
    rcases hi with rfl | rfl
    · exact ⟨_, _, _, exec_crcRead_eq_after s, exec_crcRead_eq_after _, rfl, by simp, rfl, rfl⟩
    · exact ⟨_, _, _, exec_statRead_eq_after s, exec_statRead_eq_after _, rfl, by simp, rfl, rfl⟩

end Sys2Proof.Machine
end

section
/-!
PROOF. The pseudo-instructions as runs (30_encoding.md R79): a run over a sequence of issued commands as the whole state it leaves, and
from it the streamed CRC (40_crc.md R124), the streaming encoder and the streaming decoder (41_escape.md R151). Then the
expansions and the assembler's examples (30_encoding.md R78, R79).
-/
namespace Sys2Proof.Machine

/-! ### Runs over issued commands -/

/-- The state after several transactions: the registers at the given values, `rest` next on the script, and the responses `rs` behind
those returned before. It is to a run what `State.after` is to a step. -/
def State.afterAll (s : State) (crcAcc : Word16) (escPend : BitVec 1) (status : BitVec 4) (rest : List HostEvent)
    (rs : List Response) : State :=
  { crcAcc := crcAcc, escPend := escPend, status := status, maxSrc := s.maxSrc, script := rest,
    responses := s.responses ++ rs }

section
variable (s : State) (c : Word16) (p : BitVec 1) (q : BitVec 4) (rest : List HostEvent) (rs : List Response)

@[simp] theorem State.afterAll_crcAcc : (s.afterAll c p q rest rs).crcAcc = c := rfl
@[simp] theorem State.afterAll_escPend : (s.afterAll c p q rest rs).escPend = p := rfl
@[simp] theorem State.afterAll_script : (s.afterAll c p q rest rs).script = rest := rfl
@[simp] theorem State.afterAll_responses : (s.afterAll c p q rest rs).responses = s.responses ++ rs := rfl

/-- Transactions after transactions. -/
@[simp] theorem State.afterAll_afterAll (c' : Word16) (p' : BitVec 1) (q' : BitVec 4) (rest' : List HostEvent)
    (rs' : List Response) :
    (s.afterAll c p q rest rs).afterAll c' p' q' rest' rs' = s.afterAll c' p' q' rest' (rs ++ rs') :=
  State.ext_fields _ _ rfl rfl rfl rfl rfl (List.append_assoc s.responses rs rs')

/-- No transaction leaves the state as it is. -/
theorem State.eq_afterAll_nil : s = s.afterAll s.crcAcc s.escPend s.status s.script [] :=
  State.ext_fields _ _ rfl rfl rfl rfl rfl (List.append_nil s.responses).symm

end

/-- The events of the script that issue the given commands, each with the empty bundle, as `Pseudo.issue` does (R79, log 7). -/
def issued (is : List Instr) : List HostEvent := commands (is.map fun i => i.issue OperandBundle.empty)

theorem commands_issue (ps : Pseudo) : commands ps.issue = issued ps.expand := rfl

theorem issued_append (is js : List Instr) : issued (is ++ js) = issued is ++ issued js := by
  simp [issued, commands]

/-- The step of an issued command, as the whole state it leaves. -/
theorem step_issued {s : State} {i : Instr} {is : List Instr} {rest : List HostEvent} {c : Word16} {p : BitVec 1}
    {q : BitVec 4} {r : Response} (h : s.script = issued (i :: is) ++ rest)
    (hexec : exec i s = .next (s.after c p q r)) : step s = .next (s.afterAll c p q (issued is ++ rest) [r]) := by
  have hscript : s.script = .command (i.issue OperandBundle.empty) :: (issued is ++ rest) := h
  rw [step_of_command hscript (decode_encode i), hexec]
  exact congrArg Host.Outcome.next (State.ext_fields _ _ rfl rfl rfl rfl (by simp [hscript]) rfl)

/-- A command with a byte operand absorbs the byte into `CRC_ACC` by `acc` and into `ESC_PEND` by `pend`, and answers `reply`. -/
def Streams (f : Byte → Instr) (acc : Word16 → Byte → Word16) (pend : BitVec 1 → Byte → BitVec 1)
    (reply : BitVec 1 → Byte → Response) : Prop :=
  ∀ d s, exec (f d) s =
    .next (s.after (acc s.crcAcc d) (pend s.escPend d) (reply s.escPend d).status.code (reply s.escPend d))

theorem streams_crcUpdate : Streams .crcUpdate crcStep (fun p _ => p) (fun _ _ => Response.done) :=
  exec_crcUpdate_eq_after

theorem streams_escEncByte :
    Streams .escEncByte (fun c _ => c) (fun p _ => p) (fun _ d => Response.ofOut (escByte d)) :=
  exec_escEncByte_eq_after

theorem streams_escDecByte : Streams .escDecByte (fun c _ => c) decPend decReply := exec_escDecByte_eq_after

/-- The run of such a command over a sequence of bytes: both registers absorb the sequence, and there is one response for each byte. -/
theorem run_stream {f : Byte → Instr} {acc : Word16 → Byte → Word16} {pend : BitVec 1 → Byte → BitVec 1}
    {reply : BitVec 1 → Byte → Response} (hf : Streams f acc pend reply) {bs : List Byte} {s : State}
    {rest : List HostEvent} (h : s.script = issued (bs.map f) ++ rest) :
    ∃ q, run bs.length s = .next (s.afterAll (bs.foldl acc s.crcAcc) (bs.foldl pend s.escPend) q rest
      (streamReplies reply pend s.escPend bs)) := by
  induction bs generalizing s with
  | nil =>
    obtain rfl : s.script = rest := h
    exact ⟨s.status, congrArg Host.Outcome.next s.eq_afterAll_nil⟩
  | cons d bs ih =>
    have hstep := step_issued h (hf d s)
    obtain ⟨q, hq⟩ := ih (s := s.afterAll _ _ _ (issued (bs.map f) ++ rest) _) rfl
    refine ⟨q, ?_⟩
    rw [List.length_cons, run_succ hstep, hq, State.afterAll_afterAll]
    rfl

/-- The run of a command, such a stream, and another command. -/
theorem run_between {f : Byte → Instr} {acc : Word16 → Byte → Word16} {pend : BitVec 1 → Byte → BitVec 1}
    {reply : BitVec 1 → Byte → Response} (hf : Streams f acc pend reply) {first last : Instr} {bs : List Byte} {s : State}
    {rest : List HostEvent} (h : s.script = issued (first :: bs.map f ++ [last]) ++ rest)
    {c : Word16} {p : BitVec 1} {q : BitVec 4} {r : Response} (hfirst : exec first s = .next (s.after c p q r))
    {lastAcc : Word16} {lastPend : BitVec 1} {lastStatus : BitVec 4} {lastReply : Response}
    (hlast : ∀ u : State, u.crcAcc = bs.foldl acc c → u.escPend = bs.foldl pend p →
      exec last u = .next (u.after lastAcc lastPend lastStatus lastReply)) :
    run (bs.length + 2) s = .next (s.afterAll lastAcc lastPend lastStatus rest
      (r :: streamReplies reply pend p bs ++ [lastReply])) := by
  rw [List.cons_append] at h
  have hstep := step_issued h hfirst
  rw [issued_append, List.append_assoc] at hstep
  obtain ⟨q', hq'⟩ := run_stream hf (s := s.afterAll c p q (issued (bs.map f) ++ (issued [last] ++ rest)) [r]) rfl
  rw [run_succ hstep, run_add hq', run_succ (step_issued rfl (hlast _ rfl rfl)), run_zero, State.afterAll_afterAll,
    State.afterAll_afterAll]
  rfl

/-! ### The three streams -/

/-- Settles O17: the run of `CRC_SEQ` and `CRC_READ` folds the byte step from 0xFFFF, which is the CRC that `CRC_BLOCK` computes. -/
theorem crcStreamEqualsBlock : Obligations.CrcStreamEqualsBlock := by
  unfold Obligations.CrcStreamEqualsBlock
  refine ⟨fun s bs rest h => ?_, ?_⟩
  · have hscript : s.script = issued (.crcInit :: bs.map .crcUpdate ++ [.crcRead]) ++ rest := by
      rw [h, issued_append, commands, List.map_append]
      rfl
    have hrun := run_between streams_crcUpdate hscript (exec_crcInit_eq_after s)
      (lastAcc := crc16 bs) (lastPend := s.escPend) (lastStatus := 0#4) (lastReply := Response.ofVal (crc16 bs))
      fun u hacc hpend => by
        rw [exec_crcRead_eq_after, hacc, hpend, List.foldl_fixed, crc16_eq_foldl]
    refine ⟨List.replicate (bs.length + 1) Response.done, by simp, fun r hr => List.eq_of_mem_replicate hr, ?_⟩
    rw [hrun, streamReplies_keep, List.map_const']
    exact congrArg Host.Outcome.next (State.ext_fields _ _ rfl rfl rfl rfl rfl (List.append_assoc _ _ _).symm)
  · rintro s bs rfl hfit
    exact exec_crcBlock_of_srcFits hfit

/-- Settles O28: `ESC_ENC_BYTE` keeps both registers and answers the escape of its byte. -/
theorem streamingEncoderAgrees : Obligations.StreamingEncoderAgrees := by
  unfold Obligations.StreamingEncoderAgrees
  intro s bs rest h
  obtain ⟨q, hrun⟩ := run_stream streams_escEncByte (bs := bs) (rest := rest) h
  rw [streamReplies_keep] at hrun
  refine ⟨_, bs.map fun d => Response.ofOut (escByte d), hrun, rfl, rfl, by simp, by simp, ?_, ?_, ?_⟩
  · simp [List.flatMap_map, escSeq]
  · simp
  · simp

/-- Settles O29: the run of `ESC_DEC_SEQ` returns the decoder's responses (`decReplies`), which agree with unescape. -/
theorem streamingDecoderAgrees : Obligations.StreamingDecoderAgrees := by
  unfold Obligations.StreamingDecoderAgrees
  intro s bs rest h
  have hrun := run_between streams_escDecByte (last := .escDecFlush) (bs := bs) (rest := rest) h (exec_escDecReset_eq_after s)
    (lastAcc := s.crcAcc) (lastPend := 0#1) (lastReply := flushReply (bs.foldl decPend 0#1))
    fun u hacc hpend => by rw [exec_escDecFlush_eq_after, hacc, hpend, List.foldl_fixed]
  refine ⟨_, Response.done :: decReplies bs, hrun, rfl, rfl, by simp [decReplies], rfl, rfl, fun v hv => ?_, fun hbad => ?_⟩
  · exact (okOutputs_ofOut []).append (decReplies_of_ok hv)
  · obtain ⟨v, q, rs, rs', hsplit, hq, hreplies, hok⟩ := decReplies_of_error hbad
    have hall : Response.done :: decReplies bs = (Response.done :: rs) ++ Response.error .escape :: rs' := by
      rw [hreplies, List.cons_append]
    have hbefore : OkOutputs (Response.done :: rs) v := (okOutputs_ofOut []).append hok
    rw [hall]
    refine ⟨⟨Response.error .escape, by simp, rfl⟩, escSeq v, q, v, hsplit, unescSeq_escSeq v, ?_, hq⟩
    rw [takeWhile_before_escape hbefore, hbefore.2]

/-! ### Host-side text -/

/-- Settles O53: the expansions as they are defined. -/
theorem pseudoExpansions : Obligations.PseudoExpansions := by
  unfold Obligations.PseudoExpansions
  exact ⟨fun _ => ⟨rfl, rfl, rfl⟩, rfl, rfl, rfl⟩

/-- Settles O54: each line, evaluated; the table of the fourth is any table. -/
theorem assemblerExamples : Obligations.AssemblerExamples := by
  unfold Obligations.AssemblerExamples
  refine ⟨by decide +kernel, by decide +kernel, by decide +kernel, fun t => ?_, by decide +kernel, by decide +kernel⟩
  rfl

end Sys2Proof.Machine
end
